-- ==== Sys2Proof/Word.lean ====
section
/-! DEFINITION. The data the block is made of: bytes, levels, orders, phases, causes, and the Pulse Symbol record. -/

namespace Sys2Proof

/-- One byte `b[7:0]`, bit 7 the most significant (R11, R80). -/
abbrev Byte := BitVec 8

/-- A Level (R95): `high` is the driven-high state of the data line, `low` the driven-low state. -/
inductive Level where
  | low
  | high
  deriving DecidableEq, Repr

/-- The two bit orders (R52, R91 (b)): there is no third. -/
inductive BitOrder where
  | msbFirst
  | lsbFirst
  deriving DecidableEq, Repr

/-- The six values of PHASE (R23). The reserved codes 5 and 6 have no value here (R91 (a), U16). -/
inductive Phase where
  | acquire
  | encode
  | frame
  | transmit
  | idle
  | halted
  deriving DecidableEq, Repr

/-- The four values of FAULT_CAUSE (R27, R170). -/
inductive Cause where
  | none
  | config
  | source
  | transmit
  deriving DecidableEq, Repr

/-- HALF, which half of a symbol TX is in (R37 (c)): `first` is half 0, `second` is half 1. -/
inductive Half where
  | first
  | second
  deriving DecidableEq, Repr

/-- The colour a channel index names (R53): documentation only, no rule reads it. -/
inductive Channel where
  | green
  | red
  | blue
  deriving DecidableEq, Repr

/-- A Pulse Symbol `((l0, d0), (l1, d1))` (R82): two half-periods, half 0 emitted first. Durations are
counts of ticks; that they fit DUR_W bits is checked where a symbol enters (R82). -/
structure PulseSymbol where
  l0 : Level
  d0 : Nat
  l1 : Level
  d1 : Nat
  deriving DecidableEq, Repr

end Sys2Proof
end

