-- ==== Sys2Proof/Config.lean ====
section
/-! DEFINITION. The parameters of R8, fixed for an instance (R10), and the free values the spec leaves open. -/

namespace Sys2Proof

/-- The parameters of R8. `BIT_ORDER` is not among the fields: it is the input `cfg_bit_order`, which
reset release loads into BIT_ORDER_Q (R28). Nothing ever writes a parameter (R10). -/
structure Config where
  /-- `LED_COUNT`, N. -/
  ledCount : Nat
  /-- `LED_MAX`, the largest N the index registers hold. -/
  ledMax : Nat
  /-- `CHANNEL_ORDER`: documentation only (R53, D16). -/
  channelOrder : List Channel
  /-- `TICK_NS` is the rational `tickNum / tickDen`. -/
  tickNum : Nat
  tickDen : Nat
  t0h : Nat
  t0l : Nat
  t1h : Nat
  t1l : Nat
  rst0 : Nat
  rst1 : Nat
  /-- `DUR_W`, the width in bits of a duration field. -/
  durW : Nat
  latchTicks : Nat
  framePeriodTicks : Nat
  deriving DecidableEq, Repr

/-- The reference column of R8, with LED_COUNT = 1. It stands in the reset state only; no statement
but those about the reset state and the sample words rests on its numbers (log 1). -/
def Config.reference : Config where
  ledCount := 1
  ledMax := 1024
  channelOrder := [.green, .red, .blue]
  tickNum := 50
  tickDen := 1
  t0h := 8
  t0l := 17
  t1h := 16
  t1l := 9
  rst0 := 0
  rst1 := 0
  durW := 15
  latchTicks := 1000
  framePeriodTicks := 0

/-- FREE VALUE (U11, D15; log 6): byte `i` of the Frame Buffer after the `n`-th draw, a failed ACQUIRE. -/
opaque Config.freeByte : Nat → Nat → Byte

/-- FREE VALUE (U12, R173; log 7): the levels a transmission that faulted left on the line, the `n`-th draw. -/
opaque Config.freeTrace : Nat → List Level

end Sys2Proof
end

