-- ==== Sys2Proof/Syntax.lean ====
section
/-! DEFINITION. The operations and symbols of spec/opcode_table.json, one constructor per row (R90). -/

namespace Sys2Proof

/-- The ten operations of R90 and the three symbols of R84, R85, R86. The operations selected by PHASE or
by TX take no operand: what they work on is the state. -/
inductive Instr where
  /-- ACQUIRE, R132. -/
  | acquire
  /-- ENCODE, R133. -/
  | encode
  /-- FRAME, R134. -/
  | frame
  /-- TRANSMIT, R135. -/
  | transmit
  /-- IDLE, R139. -/
  | idle
  /-- HALT, R176. -/
  | halt
  /-- TX_EMIT, R137. -/
  | txEmit
  /-- TX_DONE, R138. -/
  | txDone
  /-- ENCODE_BYTE, R110: the order the call is made with (the value of BIT_ORDER_Q) and the byte. -/
  | encodeByte (o : BitOrder) (b : Byte)
  /-- DECODE_SYMBOL, R115: the symbol. -/
  | decodeSymbol (p : PulseSymbol)
  /-- S0, the symbol of a 0 bit, R84. -/
  | s0
  /-- S1, the symbol of a 1 bit, R85. -/
  | s1
  /-- SR, the reset symbol, R86. -/
  | sr
  deriving DecidableEq, Repr

end Sys2Proof
end

