-- ==== Sys2Proof/WellFormed.lean ====
section
/-! DEFINITION. Which instructions an instance can encode: a symbol operand must be a symbol of the instance
(R82) and must fit the packed word (R83); the three symbol constants must fit the packed word. -/

namespace Sys2Proof

/-- A duration of a Pulse Symbol: `0 ≤ d < 2^DUR_W` (R82). -/
def durationFits (c : Config) (d : Nat) : Bool := decide (d < 2 ^ c.durW)

/-- A duration that the packed word's 15-bit field holds (R83). -/
def durationPacks (d : Nat) : Bool := decide (d < 2 ^ 15)

/-- The check of an instruction's operands against the instance. -/
def Instr.wellFormed (c : Config) : Instr → Bool
  | .acquire => true
  | .encode => true
  | .frame => true
  | .transmit => true
  | .idle => true
  | .halt => true
  | .txEmit => true
  | .txDone => true
  | .encodeByte _ _ => true
  | .decodeSymbol p => durationFits c p.d0 && durationFits c p.d1 && durationPacks p.d0 && durationPacks p.d1
  | .s0 => durationPacks c.t0h && durationPacks c.t0l
  | .s1 => durationPacks c.t1h && durationPacks c.t1l
  | .sr => durationPacks c.rst0 && durationPacks c.rst1

end Sys2Proof
end

