-- ==== Sys2Proof/Decode.lean ====
section
/-! DEFINITION. The formats of spec/opcode_table.json, the decoder, total on any bytes, and the encoder.
The block has no opcode that tells the formats apart (R90): what presents a word says its format. A word's
bits are numbered as the table numbers them, bit 0 the least significant; a word lies little endian in its
bytes (log 14). -/

namespace Sys2Proof

/-! ### Codes of the enumerations -/

/-- The coding of a Level: High 1, Low 0 (R95). -/
def Level.code : Level → Nat
  | .low => 0
  | .high => 1

/-- The Level of a code bit (R95). -/
def Level.ofCode (n : Nat) : Level := if n % 2 = 0 then .low else .high

/-- The coding of the bit order: 0 MSB_FIRST, 1 LSB_FIRST (R28). -/
def BitOrder.code : BitOrder → Nat
  | .msbFirst => 0
  | .lsbFirst => 1

/-- The bit order of a code bit (R28). -/
def BitOrder.ofCode (n : Nat) : BitOrder := if n % 2 = 0 then .msbFirst else .lsbFirst

/-- The 3-bit phase codes of R90. -/
def Phase.code : Phase → BitVec 3
  | .acquire => 0
  | .encode => 1
  | .frame => 2
  | .transmit => 3
  | .idle => 4
  | .halted => 7

/-- The fault cause codes of R170. -/
def Cause.code : Cause → BitVec 2
  | .none => 0
  | .config => 1
  | .source => 2
  | .transmit => 3

/-! ### The three symbols and the packed word -/

/-- `S0 = ((High, T0H), (Low, T0L))` (R84). -/
def Config.symS0 (c : Config) : PulseSymbol := ⟨.high, c.t0h, .low, c.t0l⟩

/-- `S1 = ((High, T1H), (Low, T1L))` (R85). -/
def Config.symS1 (c : Config) : PulseSymbol := ⟨.high, c.t1h, .low, c.t1l⟩

/-- `SR = ((Low, RST0), (Low, RST1))` (R86). -/
def Config.symSR (c : Config) : PulseSymbol := ⟨.low, c.rst0, .low, c.rst1⟩

/-- The packed word `{l1, d1[14:0], l0, d0[14:0]}` (R83): bit 31 `l1`, bits 30:16 `d1`, bit 15 `l0`,
bits 14:0 `d0`. -/
def PulseSymbol.word (p : PulseSymbol) : Nat :=
  p.l1.code * 2 ^ 31 + p.d1 % 2 ^ 15 * 2 ^ 16 + p.l0.code * 2 ^ 15 + p.d0 % 2 ^ 15

/-- The symbol a packed word holds (R83). -/
def symbolOfWord (w : Nat) : PulseSymbol where
  l0 := Level.ofCode (w / 2 ^ 15)
  d0 := w % 2 ^ 15
  l1 := Level.ofCode (w / 2 ^ 31)
  d1 := w / 2 ^ 16 % 2 ^ 15

/-- Both durations fit their 15-bit fields (R83). -/
def PulseSymbol.packs (p : PulseSymbol) : Bool := durationPacks p.d0 && durationPacks p.d1

/-! ### Words in bytes -/

/-- The `n` bytes of a word, least significant first (log 14). -/
def bytesOf : Nat → Nat → List Byte
  | 0, _ => []
  | n + 1, w => BitVec.ofNat 8 w :: bytesOf n (w / 256)

/-- The number that bytes hold, least significant first (log 14). -/
def valueOf : List Byte → Nat
  | [] => 0
  | b :: bs => b.toNat + 256 * valueOf bs

/-- The kinds of word of spec/opcode_table.json: format PHASE, format TXSTEP, the two rows of format FUNC,
and format SYMBOL. -/
inductive Format where
  | phase
  | txStep
  | encodeByte
  | decodeSymbol
  | symbol
  deriving DecidableEq, Repr

/-- How many bytes a word of the format takes, in whole bytes: 3, 9 and 32 bits (R90, R110, R83). A TXSTEP
has no code (R90); the model gives it one byte (log 14). -/
def Format.length : Format → Nat
  | .phase => 1
  | .txStep => 1
  | .encodeByte => 2
  | .decodeSymbol => 4
  | .symbol => 4

/-- The formats that are calls from outside LOOP and TX: the two functions and the three symbols (R90). -/
def Format.isCall : Format → Bool
  | .phase => false
  | .txStep => false
  | .encodeByte => true
  | .decodeSymbol => true
  | .symbol => true

/-- A word as it is presented: its format and its bytes. -/
structure Code where
  fmt : Format
  bytes : List Byte
  deriving DecidableEq, Repr

/-- Why a word is no instruction. -/
inductive Reject where
  /-- The format takes another number of bytes (R96). -/
  | wrongLength
  /-- Phase codes 5 and 6 are reserved (R91 (a)). -/
  | reservedPhase
  /-- A bit above the format's bits is not 0 (R96). -/
  | strayBits
  /-- A duration does not fit DUR_W bits, so the word holds no Pulse Symbol of the instance (R82). -/
  | durationTooWide
  /-- The word is the packed form of none of S0, S1, SR (R91 (d)). -/
  | notASymbol
  deriving DecidableEq, Repr

/-- What decoding answers. -/
inductive Decoded where
  | ok (i : Instr)
  | bad (r : Reject)
  deriving DecidableEq, Repr

/-- Format PHASE: the 3-bit codes of R90. -/
def decodePhase : Nat → Decoded
  | 0 => .ok .acquire
  | 1 => .ok .encode
  | 2 => .ok .frame
  | 3 => .ok .transmit
  | 4 => .ok .idle
  | 5 => .bad .reservedPhase
  | 6 => .bad .reservedPhase
  | 7 => .ok .halt
  | _ => .bad .strayBits

/-- Format TXSTEP: no code in the spec; 0 stands for `SYM_IDX ≤ 24N`, 1 for `SYM_IDX = 24N + 1` (log 14). -/
def decodeTxStep : Nat → Decoded
  | 0 => .ok .txEmit
  | 1 => .ok .txDone
  | _ => .bad .strayBits

/-- ENCODE_BYTE's operand word `obbbbbbbb`: bit 8 the order, bits 7:0 the byte. -/
def decodeEncodeByte (v : Nat) : Decoded :=
  if v < 512 then .ok (.encodeByte (BitOrder.ofCode (v / 256)) (BitVec.ofNat 8 v)) else .bad .strayBits

/-- DECODE_SYMBOL's operand word, a packed symbol. -/
def decodeDecodeSymbol (c : Config) (v : Nat) : Decoded :=
  if durationFits c (symbolOfWord v).d0 && durationFits c (symbolOfWord v).d1 then
    .ok (.decodeSymbol (symbolOfWord v))
  else .bad .durationTooWide

/-- Format SYMBOL: the packed words of the instance's three symbols and no other. -/
def decodeConstant (c : Config) (v : Nat) : Decoded :=
  if c.symS0.packs && v == c.symS0.word then .ok .s0
  else if c.symS1.packs && v == c.symS1.word then .ok .s1
  else if c.symSR.packs && v == c.symSR.word then .ok .sr
  else .bad .notASymbol

/-- The decoder, total on any bytes. -/
def decode (c : Config) (w : Code) : Decoded :=
  if w.bytes.length = w.fmt.length then
    match w.fmt with
    | .phase => decodePhase (valueOf w.bytes)
    | .txStep => decodeTxStep (valueOf w.bytes)
    | .encodeByte => decodeEncodeByte (valueOf w.bytes)
    | .decodeSymbol => decodeDecodeSymbol c (valueOf w.bytes)
    | .symbol => decodeConstant c (valueOf w.bytes)
  else .bad .wrongLength

/-- A phase code as a word. -/
def Phase.asCode (p : Phase) : Code := ⟨.phase, bytesOf 1 p.code.toNat⟩

/-- The encoder: the word of an instruction, from the encodings of spec/opcode_table.json. -/
def encode (c : Config) : Instr → Code
  | .acquire => Phase.acquire.asCode
  | .encode => Phase.encode.asCode
  | .frame => Phase.frame.asCode
  | .transmit => Phase.transmit.asCode
  | .idle => Phase.idle.asCode
  | .halt => Phase.halted.asCode
  | .txEmit => ⟨.txStep, bytesOf 1 0⟩
  | .txDone => ⟨.txStep, bytesOf 1 1⟩
  | .encodeByte o b => ⟨.encodeByte, bytesOf 2 (o.code * 256 + b.toNat)⟩
  | .decodeSymbol p => ⟨.decodeSymbol, bytesOf 4 p.word⟩
  | .s0 => ⟨.symbol, bytesOf 4 c.symS0.word⟩
  | .s1 => ⟨.symbol, bytesOf 4 c.symS1.word⟩
  | .sr => ⟨.symbol, bytesOf 4 c.symSR.word⟩

/-! ### Words of the opcode table -/

/-- The word of a 32-bit row: one of the reference configuration's three symbols where it is that symbol's
word (the table's match values are for that configuration), else DECODE_SYMBOL's operand (log 16). -/
def tableCode32 (w : Nat) : Code :=
  match decodeConstant Config.reference w with
  | .ok _ => ⟨.symbol, bytesOf 4 w⟩
  | .bad _ => ⟨.decodeSymbol, bytesOf 4 w⟩

/-- The word of a row as the table numbers its bits: 8 bits are a phase code, 16 are ENCODE_BYTE's operand
word, 32 are a symbol or DECODE_SYMBOL's operand word (log 16). -/
def tableCode (nbits w : Nat) : Option Code :=
  if w < 2 ^ nbits then
    match nbits with
    | 8 => some ⟨.phase, bytesOf 1 w⟩
    | 16 => some ⟨.encodeByte, bytesOf 2 w⟩
    | 32 => some (tableCode32 w)
    | _ => none
  else none

/-- The instruction the decoder reads from a table word, in the reference configuration. -/
def decodeTableWord (nbits w : Nat) : Option Instr :=
  match tableCode nbits w with
  | some k =>
    match decode Config.reference k with
    | .ok i => some i
    | .bad _ => none
  | none => none

end Sys2Proof
end

