-- ==== Sys2Proof/Machine/Operands.lean ====
section
/-! DEFINITION. The pure functions of the spec: sizes and constants of an instance (R8, R9), bit selection (R89),
the Pulse Encoder and its inverse (R110 to R117), frames (R141, R145), waveforms (R94), tick counts (R87). -/

namespace Sys2Proof

/-! ### Sizes and constants of an instance -/

/-- `3N`, the length of FB (R21). -/
def Config.frameLen (c : Config) : Nat := 3 * c.ledCount

/-- `24N`, the index of the reset symbol (R22, R60). -/
def Config.lastSlot (c : Config) : Nat := 24 * c.ledCount

/-- `24N + 1`, the length of PB (R22). -/
def Config.bufferLen (c : Config) : Nat := 24 * c.ledCount + 1

/-- `IDLE_GAP_TICKS = LATCH_TICKS + FRAME_PERIOD_TICKS` (R8). -/
def Config.idleGapTicks (c : Config) : Nat := c.latchTicks + c.framePeriodTicks

/-- A duration of a data half: at least 1 and less than `2^DUR_W` (R9 (c)). -/
def Config.legalDuration (c : Config) (d : Nat) : Bool := decide (1 ≤ d) && durationFits c d

/-- A configuration of this block: the legal values of R8 and the constraints (a), (c), (d) of R9. -/
def Config.legal (c : Config) : Bool :=
  decide (1 ≤ c.ledCount) && decide (c.ledCount ≤ c.ledMax)
    && decide (1 ≤ c.tickNum) && decide (1 ≤ c.tickDen) && decide (1 ≤ c.durW)
    && c.legalDuration c.t0h && c.legalDuration c.t0l && c.legalDuration c.t1h && c.legalDuration c.t1l
    && durationFits c c.rst0 && durationFits c c.rst1
    && decide (c.t1h ≠ c.t0h)

/-- R9 (b): the configuration is the protocol D00 describes, short high and long low for 0, long high and
short low for 1. A configuration that breaks only this still runs. -/
def Config.isProtocol (c : Config) : Bool := decide (c.t0h < c.t0l) && decide (c.t1l < c.t1h)

/-- `ceil(log2(n))` for `n ≥ 1`: the bits that hold 0 .. n-1. -/
def bitsFor (n : Nat) : Nat := if n ≤ 1 then 0 else (n - 1).log2 + 1

/-- The width of the index registers, at most (R24). -/
def Config.indexWidth (c : Config) : Nat := bitsFor (24 * c.ledMax + 2)

/-- The width of FAULT_INFO (R36 CR5). -/
def Config.faultInfoWidth (c : Config) : Nat := bitsFor (3 * c.ledMax + 1)

/-- The tick count of a nominal time of `t` nanoseconds, `floor(t / TICK_NS + 1/2)` with
`TICK_NS = num / den` (R87). -/
def tickCount (num den t : Nat) : Nat := (2 * t * den + num) / (2 * num)

/-- A configuration with the four data durations derived from its tick (R87): 400, 850, 800, 450 ns. -/
def Config.withDerivedTicks (c : Config) : Config :=
  { c with
    t0h := tickCount c.tickNum c.tickDen 400
    t0l := tickCount c.tickNum c.tickDen 850
    t1h := tickCount c.tickNum c.tickDen 800
    t1l := tickCount c.tickNum c.tickDen 450 }

/-! ### The Pulse Encoder -/

/-- `bitsel(b, k)`: the `k`-th bit to be transmitted (R89). -/
def bitsel (o : BitOrder) (b : Byte) (k : Nat) : Bool :=
  match o with
  | .msbFirst => b.getLsbD (7 - k)
  | .lsbFirst => b.getLsbD k

/-- `sym(v)`: the data symbol of a bit (R84, R85). -/
def Config.sym (c : Config) (v : Bool) : PulseSymbol := if v then c.symS1 else c.symS0

/-- `encode_byte(b)`, the Pulse Encoder (R110): `out[k] = sym(bitsel(b, k))`, `k` from 0 to 7. -/
def encodeByte (c : Config) (o : BitOrder) (b : Byte) : List PulseSymbol :=
  (List.range 8).map fun k => c.sym (bitsel o b k)

/-- `decode_symbol(s)` (R115): only the high duration is read; `some true` is `some 1`. -/
def decodeSymbol (c : Config) (p : PulseSymbol) : Option Bool :=
  if p.d0 = c.t1h then some true else if p.d0 = c.t0h then some false else none

/-- `decode_symbol` of each symbol, `none` if any has no bit (R116). -/
def decodeBits (c : Config) : List PulseSymbol → Option (List Bool)
  | [] => some []
  | p :: ps =>
    match decodeSymbol c p, decodeBits c ps with
    | some v, some vs => some (v :: vs)
    | _, _ => none

/-- The number whose bits are given most significant first. -/
def natOfBits : List Bool → Nat
  | [] => 0
  | v :: vs => v.toNat * 2 ^ vs.length + natOfBits vs

/-- The byte with `b[7 - k] = v[k]` (MSB first) or `b[k] = v[k]` (LSB first) (R116). -/
def byteOfBits (o : BitOrder) (vs : List Bool) : Byte :=
  match o with
  | .msbFirst => BitVec.ofNat 8 (natOfBits vs)
  | .lsbFirst => BitVec.ofNat 8 (natOfBits vs.reverse)

/-- `decode_byte(seq)` for a sequence of 8 symbols (R116). DESIGN CHOICE (log 28): R116 defines it for no other length;
there it is `none`. -/
def decodeByte (c : Config) (o : BitOrder) (seq : List PulseSymbol) : Option Byte :=
  if seq.length = 8 then
    match decodeBits c seq with
    | some vs => some (byteOfBits o vs)
    | none => none
  else none

/-- `rev(b)`, with `rev(b)[i] = b[7 - i]` (R114). -/
def revByte (b : Byte) : Byte := byteOfBits .msbFirst ((List.range 8).map fun i => b.getLsbD i)

/-! ### Frames -/

/-- The 8-symbol windows of a sequence of bytes, in frame order (R53, R133). -/
def encodeBytes (c : Config) (o : BitOrder) (f : List Byte) : List PulseSymbol := f.flatMap (encodeByte c o)

/-- `build_pb(f)`: the windows of every byte and then SR (R141). -/
def buildPb (c : Config) (o : BitOrder) (f : List Byte) : List PulseSymbol := encodeBytes c o f ++ [c.symSR]

/-- The bytes of `n` consecutive windows, `none` if any window decodes to none (R145). -/
def decodeWindows (c : Config) (o : BitOrder) : Nat → List PulseSymbol → Option (List Byte)
  | 0, _ => some []
  | n + 1, p =>
    match decodeByte c o (p.take 8), decodeWindows c o n (p.drop 8) with
    | some b, some bs => some (b :: bs)
    | _, _ => none

/-- `decode_pb(p)`: the bytes of the 3N windows; the last element is ignored (R145). R145
defines it for length 24N + 1 only (log 28). -/
def decodePb (c : Config) (o : BitOrder) (p : List PulseSymbol) : Option (List Byte) :=
  decodeWindows c o c.frameLen p

/-! ### The waveform -/

/-- `segs(s) = [(l0, d0), (l1, d1)]` (R94). -/
def segs (p : PulseSymbol) : List (Level × Nat) := [(p.l0, p.d0), (p.l1, p.d1)]

/-- `ticks(buf)`: each segment `(l, d)` of each symbol as `d` copies of `l` (R94). -/
def ticks (buf : List PulseSymbol) : List Level :=
  (buf.flatMap segs).flatMap fun g => List.replicate g.2 g.1

/-- The level of a half of a symbol. -/
def PulseSymbol.level (p : PulseSymbol) : Half → Level
  | .first => p.l0
  | .second => p.l1

/-- The duration of a half of a symbol. -/
def PulseSymbol.duration (p : PulseSymbol) : Half → Nat
  | .first => p.d0
  | .second => p.d1

end Sys2Proof
end

