-- ==== Sys2Proof/Machine/State.lean ====
section
/-! DEFINITION. The state of the block (R20, R37, R7), the draws of its oracles (R32), the reasons the model
stops, and the state after reset (R38). -/

namespace Sys2Proof.Machine

/-- An operation-level answer of the Frame Source to `SRC.read_exact(3N)` (R131). The fourth outcome, no
answer, is the absence of one. -/
inductive SrcAnswer where
  /-- `Full(d)`: exactly 3N bytes. -/
  | full (d : List Byte)
  /-- `Short(k)`: the call ended with `k < 3N` bytes. -/
  | short (k : Nat)
  /-- `Error(k)`: stream failure after `k < 3N` bytes. -/
  | error (k : Nat)
  deriving DecidableEq, Repr

/-- What one step draws from outside (R32, R39): the input ports, an operation-level source answer, and
whether the scheduler or a latency holds the block back (log 3, log 10). -/
structure Inputs where
  /-- Port `rst`. -/
  rst : Bool
  /-- Port `cfg_ok`. -/
  cfgOk : Bool
  /-- Port `cfg_bit_order`. -/
  cfgBitOrder : BitOrder
  /-- Port `src_valid`. -/
  srcValid : Bool
  /-- Port `src_data`. -/
  srcData : Byte
  /-- Port `src_fail`. -/
  srcFail : Bool
  /-- Port `tx_err`. -/
  txErr : Bool
  /-- An answer of `SRC.read_exact(3N)` at the level of operations (R131). -/
  srcAnswer : Option SrcAnswer
  /-- The suspension or latency the block is in goes on for one more tick (R32 (d)). -/
  hold : Bool
  deriving DecidableEq, Repr

/-- Nothing happens outside: no byte, no failure, no error, no reset, no wait. DESIGN CHOICE (log 3): the spec leaves
`cfg_ok` and `cfg_bit_order` to the platform (R32 (e), R28) and lets no order be assumed silently (D4); an idle draw shows
`cfg_ok = 1` and MSB_FIRST, so a release for which no draw is listed samples these. `src_data` is read by nothing, as
`src_valid` is 0. -/
def Inputs.idle : Inputs where
  rst := false
  cfgOk := true
  cfgBitOrder := .msbFirst
  srcValid := false
  srcData := 0
  srcFail := false
  txErr := false
  srcAnswer := none
  hold := false

/-- What the last call of a function or symbol returned (log 13). -/
inductive CallResult where
  | nothing
  /-- ENCODE_BYTE's eight symbols (R110). -/
  | symbols (ps : List PulseSymbol)
  /-- DECODE_SYMBOL's answer (R115). -/
  | bit (v : Option Bool)
  /-- A symbol constant (R84, R85, R86). -/
  | symbol (p : PulseSymbol)
  deriving DecidableEq, Repr

/-- The state: R20's table, R37 (c), the reset synchroniser R210 implies, the observables of R7, the
instance's parameters (R8), and the model's own fields. -/
structure State where
  /-- The parameters of the instance; no step writes them (R10, log 1). -/
  cfg : Config
  /-- FB, the Frame Buffer (R21): index and byte, indices strictly rising, an unlisted byte was never written. -/
  fb : List Host.Cell
  /-- PB, the Pulse Buffer (R22): index and symbol, as FB. -/
  pb : List (Nat × PulseSymbol)
  /-- PHASE (R23). -/
  phase : Phase
  /-- ACQ_COUNT (R24). -/
  acqCount : Nat
  /-- BYTE_IDX (R24). -/
  byteIdx : Nat
  /-- SYM_IDX (R24). -/
  symIdx : Nat
  /-- TX_BUSY (R25); TX owns PB exactly while it is set (R37 (a)). -/
  txBusy : Bool
  /-- IDLE_CNT (R26). -/
  idleCnt : Nat
  /-- HALTED (R27). -/
  halted : Bool
  /-- FAULT_CAUSE (R27). -/
  faultCause : Cause
  /-- FAULT_INFO (R27). -/
  faultInfo : Nat
  /-- BIT_ORDER_Q (R28). -/
  bitOrderQ : BitOrder
  /-- DOUT (R29). -/
  dout : Level
  /-- HALF (R37 (c)). -/
  half : Half
  /-- TICKS_LEFT (R37 (c)). -/
  ticksLeft : Nat
  /-- `rst` was 1 on the step before (R210). -/
  inReset : Bool
  /-- The submission log (R7 (a)). -/
  log : List (List PulseSymbol)
  /-- The line trace (R7 (b), R94), one level a tick. -/
  trace : List Level
  /-- The model's own: the length of the trace at the last submit (log 7). -/
  txMark : Nat
  /-- The model's own: the draws to come, one a step (log 3). -/
  inputs : List Inputs
  /-- The model's own: a function or symbol word waiting to be evaluated (log 13). -/
  call : Option Code
  /-- The model's own: what the last call returned (log 13). -/
  result : CallResult
  /-- The model's own: how many free values have been drawn (log 17). -/
  freeCount : Nat
  deriving DecidableEq, Repr

/-- Why a step stops with a fault. These are the MODEL's stops; the block's own fatal faults (R170) are next
states. No reachable state takes any of them. -/
inductive Fault where
  /-- ENCODE reads a Frame Buffer byte nothing has written since reset (U13). Safe. -/
  | unwrittenFrameByte
  /-- TRANSMIT or TX_EMIT reads a Pulse Buffer symbol nothing has written since reset (U13). Safe. -/
  | unwrittenPulseSymbol
  /-- ACQUIRE or ENCODE with an index outside 0 .. 3N-1, which R66 says cannot arise (log 22). Safe. -/
  | frameIndexOutOfRange
  deriving DecidableEq, Repr

/-- Why a step is refused. -/
inductive Refusal where
  /-- Raised by exec's arm of an instruction that has no meaning yet. Safe. -/
  | notModelled (mnemonic : String)
  /-- Raised by step: the parameters break R8 or R9 (a), (c), (d), so there is no such block (R9, U2). Safe. -/
  | illegalConfiguration
  /-- Raised by a meaning whose precondition does not hold: the operation is not enabled (R132 to R139, R176,
  U14; log 19). step never asks for one in a reachable state. Safe. -/
  | notEnabled (i : Instr)
  /-- Raised by ACQUIRE: an operation-level answer R131 does not allow (a `Full` of another length, a `Short`
  or `Error` of 3N bytes or more; log 4). Safe. -/
  | sourceContract (a : SrcAnswer)
  /-- Raised by step: the word presented is no instruction (R91). Safe. -/
  | undecodable (r : Reject)
  deriving DecidableEq, Repr

/-- The machine right after the release of reset with `cfg_ok = 1` and `cfg_bit_order = 0` (R38, R210; log 11):
PHASE ACQUIRE, every counter 0, flags 0, DOUT Low, logs empty, both buffers unwritten. No draw is listed: SRC
does not answer until inputs are supplied (log 16). -/
def State.reset : State where
  cfg := Config.reference
  fb := []
  pb := []
  phase := .acquire
  acqCount := 0
  byteIdx := 0
  symIdx := 0
  txBusy := false
  idleCnt := 0
  halted := false
  faultCause := .none
  faultInfo := 0
  bitOrderQ := .msbFirst
  dout := .low
  half := .first
  ticksLeft := 0
  inReset := false
  log := []
  trace := []
  txMark := 0
  inputs := []
  call := none
  result := .nothing
  freeCount := 0

end Sys2Proof.Machine
end

