-- ==== Sys2Proof/Machine/Ops.lean ====
section
/-! DEFINITION. The shared operations: memory, draws and ticks, phase entries, fault entry, reset. -/

namespace Sys2Proof.Machine

/-! ### Memory: a list of (index, content), indices strictly rising -/

/-- The content of a slot, `none` where nothing has been written (U13, log 5). -/
def Memory.read {α : Type} : List (Nat × α) → Nat → Option α
  | [], _ => none
  | (k, v) :: m, a => if k = a then some v else Memory.read m a

/-- Write a slot, keeping the indices strictly rising. -/
def Memory.write {α : Type} : List (Nat × α) → Nat → α → List (Nat × α)
  | [], a, v => [(a, v)]
  | (k, w) :: m, a, v =>
    if a < k then (a, v) :: (k, w) :: m
    else if a = k then (a, v) :: m
    else (k, w) :: Memory.write m a v

/-- The canonical form of a memory of `n` slots: indices strictly rising, all below `n`. An unlisted slot has
no value, so no listed entry can equal what an unlisted one reads as. -/
def Memory.wf {α : Type} (n : Nat) (m : List (Nat × α)) : Bool :=
  decide ((m.map Prod.fst).Pairwise (· < ·)) && decide (∀ a ∈ m.map Prod.fst, a < n)

/-- Write a sequence to consecutive slots (R12, `PB[j .. j+7] <- seq`). -/
def Memory.writeSpan {α : Type} (m : List (Nat × α)) (a : Nat) : List α → List (Nat × α)
  | [] => m
  | v :: vs => Memory.writeSpan (Memory.write m a v) (a + 1) vs

/-- Read `n` consecutive slots, `none` if any was never written. -/
def Memory.readSpan {α : Type} (m : List (Nat × α)) : Nat → Nat → Option (List α)
  | _, 0 => some []
  | a, n + 1 =>
    match Memory.read m a, Memory.readSpan m (a + 1) n with
    | some v, some vs => some (v :: vs)
    | _, _ => none

/-- `MemRead(FB, i, 1)` (R12). -/
def State.readFb (s : State) (i : Nat) : Option Byte := Memory.read s.fb i

/-- `MemRead(PB, j, 1)` (R12). -/
def State.readPb (s : State) (j : Nat) : Option PulseSymbol := Memory.read s.pb j

/-- The Color Frame in FB, all 3N bytes (R21). -/
def State.frame (s : State) : Option (List Byte) := Memory.readSpan s.fb 0 s.cfg.frameLen

/-- The contents of PB, all 24N + 1 symbols (R22). -/
def State.buffer (s : State) : Option (List PulseSymbol) := Memory.readSpan s.pb 0 s.cfg.bufferLen

/-! ### Draws and ticks -/

/-- The draw of this step: the first that is listed, idle inputs when none is (log 3). -/
def State.cur (s : State) : Inputs := s.inputs.headD Inputs.idle

/-- The draw is used up. -/
def State.pop (s : State) : State := { s with inputs := s.inputs.tail }

/-- One tick passes: `dout` shows its level for it (R94). -/
def State.tick (s : State) : State := { s with trace := s.trace ++ [s.dout] }

/-! ### Phase entries: each loads the phase's counter (R24, R26, R38; log 8) -/

/-- `PHASE <- ACQUIRE`; ACQ_COUNT is 0 at phase entry (R24, R132). -/
def State.enterAcquire (s : State) : State := { s with phase := .acquire, acqCount := 0 }

/-- `PHASE <- ENCODE`; BYTE_IDX is 0 at entry (R24). -/
def State.enterEncode (s : State) : State := { s with phase := .encode, byteIdx := 0 }

/-- `PHASE <- IDLE`; IDLE_CNT is loaded with IDLE_GAP_TICKS on entry (R26, R139). -/
def State.enterIdle (s : State) : State := { s with phase := .idle, idleCnt := s.cfg.idleGapTicks }

/-! ### Fault entry and its two callers' preparations -/

/-- `raise Fault(cause)` (R175). Nothing is saved and there is no return (R180). -/
def State.raiseFault (s : State) (cause : Cause) : State :=
  { s with
    faultCause := cause
    faultInfo := if cause = .source then s.acqCount else 0
    halted := true
    txBusy := false
    dout := .low
    phase := .halted }

/-- FB after a failed ACQUIRE: every byte a free value (U11, D15; log 6). -/
def freeFrame (c : Config) (n : Nat) : List Host.Cell :=
  (List.range c.frameLen).map fun i => (i, Config.freeByte n i)

/-- The SOURCE fault after `k` bytes: `ACQ_COUNT <- k; raise Fault(SOURCE)` (R132), FB left open. -/
def State.failAcquire (s : State) (k : Nat) : State :=
  State.raiseFault
    { s with acqCount := k, fb := freeFrame s.cfg s.freeCount, freeCount := s.freeCount + 1 } .source

/-- The TRANSMIT fault (R135, R173): what the transmission left on the line is a free value (U12; log 7). -/
def State.failTransmission (s : State) : State :=
  State.raiseFault
    { s with
      trace := s.trace.take s.txMark ++ Config.freeTrace s.freeCount
      freeCount := s.freeCount + 1 } .transmit

/-! ### The effects of the phases -/

/-- The success path of ACQUIRE (R132): `FB[i] <- d[i]` for every `i`, `ACQ_COUNT <- 3N`, `PHASE <- ENCODE`. -/
def State.takeFrame (s : State) (d : List Byte) : State :=
  State.enterEncode { s with fb := Memory.writeSpan s.fb 0 d, acqCount := s.cfg.frameLen }

/-- One transfer of ACQUIRE's micro-step form (R132): the byte is stored, and at 3N bytes ENCODE is entered. -/
def State.takeByte (s : State) (b : Byte) : State :=
  { s with
    fb := Memory.write s.fb s.acqCount b
    acqCount := s.acqCount + 1
    phase := if s.acqCount + 1 = s.cfg.frameLen then .encode else s.phase
    byteIdx := if s.acqCount + 1 = s.cfg.frameLen then 0 else s.byteIdx }

/-- One byte of ENCODE (R133): `PB[8i .. 8i+7] <- encode_byte(FB[i])` with `i = BYTE_IDX`, and after the last
byte `PHASE <- FRAME`. -/
def State.encodeWindow (s : State) (b : Byte) : State :=
  { s with
    pb := Memory.writeSpan s.pb (8 * s.byteIdx) (encodeByte s.cfg s.bitOrderQ b)
    byteIdx := s.byteIdx + 1
    phase := if s.byteIdx + 1 = s.cfg.frameLen then .frame else s.phase }

/-- FRAME (R134): `PB[24N] <- SR`, `PHASE <- TRANSMIT`. -/
def State.closeFrame (s : State) : State :=
  { s with pb := Memory.write s.pb s.cfg.lastSlot s.cfg.symSR, phase := .transmit }

/-- The ticks of the first half of symbol `j`, 0 past the end of the buffer. -/
def State.firstTicks (s : State) (j : Nat) : Nat :=
  match s.readPb j with
  | some p => p.d0
  | none => 0

/-- The submit of TRANSMIT (R135): the log gains a copy of PB, `SYM_IDX <- 0`, `TX_BUSY <- 1`; TX stands at
the first half of symbol 0 (R37 (c); log 12). -/
def State.submit (s : State) (buf : List PulseSymbol) : State :=
  { s with
    log := s.log ++ [buf]
    symIdx := 0
    txBusy := true
    half := .first
    ticksLeft := s.firstTicks 0
    txMark := s.trace.length }

/-- One tick of IDLE (R26, R139). -/
def State.countDown (s : State) : State := State.tick { s with idleCnt := s.idleCnt - 1 }

/-- TX drives a level for one tick (R137). -/
def State.drive (s : State) (l : Level) : State :=
  State.tick { s with dout := l, ticksLeft := s.ticksLeft - 1 }

/-- DOUT as TX enters a half of level `l`: Low throughout a Low half (R29). A High half is driven from its first tick
(R137); before that tick DOUT keeps the level it has (DESIGN CHOICE, log 29). -/
def doutEntering (l before : Level) : Level := if l = .low then .low else before

/-- DOUT as TX enters symbol `j`, Low past the last one, where there is no half-period (R29). -/
def State.doutAtSymbol (s : State) (j : Nat) : Level :=
  match s.readPb j with
  | some p => doutEntering p.l0 s.dout
  | none => .low

/-- TX goes on to half 1 of symbol `p`; no tick passes (R137). -/
def State.toSecondHalf (s : State) (p : PulseSymbol) : State :=
  { s with half := .second, ticksLeft := p.d1, dout := doutEntering p.l1 s.dout }

/-- `SYM_IDX <- SYM_IDX + 1`; TX stands at half 0 of the next symbol, no tick passes (R137). -/
def State.toNextSymbol (s : State) : State :=
  { s with
    symIdx := s.symIdx + 1
    half := .first
    ticksLeft := s.firstTicks (s.symIdx + 1)
    dout := s.doutAtSymbol (s.symIdx + 1) }

/-- TX_DONE's own writes: `DOUT <- Low`, `TX_BUSY <- 0` (R138). -/
def State.endTransmission (s : State) : State := { s with dout := .low, txBusy := false }

/-- Completion resolves LOOP's await in TRANSMIT: `PHASE <- IDLE` (R135, R138; log 9). -/
def State.resumeAfterCompletion (s : State) : State := if s.phase = .transmit then s.enterIdle else s

/-- A call returns its value (log 13). -/
def State.deliver (s : State) (r : CallResult) : State := { s with result := r }

/-! ### Reset (R38, R210) -/

/-- A tick with `rst = 1`: every register at its reset value, both buffers unspecified, both logs empty.
DESIGN CHOICE (log 11): R38 gives PHASE, HALTED and FAULT_CAUSE by `cfg_ok` at release only; until then they hold, and
the ports show, ACQUIRE, 0 and NONE. BIT_ORDER_Q has no value of its own until release loads it (R28, R38), so it is
left as it is. HALF and TICKS_LEFT are log 12's. The parameters,
the draws to come, a waiting call and the count of free values are no registers of the block. -/
def State.holdReset (s : State) : State :=
  { s with
    fb := []
    pb := []
    phase := .acquire
    acqCount := 0
    byteIdx := 0
    symIdx := 0
    txBusy := false
    idleCnt := 0
    halted := false
    faultCause := .none
    faultInfo := 0
    dout := .low
    half := .first
    ticksLeft := 0
    inReset := true
    log := []
    trace := []
    txMark := 0 }

/-- The first tick with `rst = 0` (R210): `cfg_bit_order` is loaded into BIT_ORDER_Q; with `cfg_ok = 0` the
block comes up halted with cause CONFIG (R171). -/
def State.releaseReset (s : State) (cfgOk : Bool) (o : BitOrder) : State :=
  if cfgOk then { s.holdReset with inReset := false, bitOrderQ := o }
  else State.raiseFault { s.holdReset with inReset := false, bitOrderQ := o } .config

end Sys2Proof.Machine
end

