-- ==== Sys2Proof/Machine/Encoder.lean ====
section
/-! DEFINITION. The two functions and the three symbols: ENCODE_BYTE, DECODE_SYMBOL, S0, S1, SR. Each returns a
value and changes nothing else (R110, R111, R115; log 13). -/

namespace Sys2Proof.Machine

/-- ENCODE_BYTE (R110), called with the order BIT_ORDER_Q holds. -/
def execEncodeByte (o : BitOrder) (b : Byte) (s : State) : Host.Outcome State Fault Refusal :=
  .next (s.deliver (.symbols (encodeByte s.cfg o b)))

/-- DECODE_SYMBOL (R115). -/
def execDecodeSymbol (p : PulseSymbol) (s : State) : Host.Outcome State Fault Refusal :=
  .next (s.deliver (.bit (decodeSymbol s.cfg p)))

/-- S0 (R84). -/
def execS0 (s : State) : Host.Outcome State Fault Refusal := .next (s.deliver (.symbol s.cfg.symS0))

/-- S1 (R85). -/
def execS1 (s : State) : Host.Outcome State Fault Refusal := .next (s.deliver (.symbol s.cfg.symS1))

/-- SR (R86). -/
def execSR (s : State) : Host.Outcome State Fault Refusal := .next (s.deliver (.symbol s.cfg.symSR))

end Sys2Proof.Machine
end

