-- ==== Sys2Proof/Machine/Flags.lean ====
section
/-! DEFINITION. The flags TX_BUSY and HALTED and what they enable (R25, R27, R35): preconditions, sampling
windows, the status registers CR0 to CR5 (R36) and the output ports (R39). The block has no condition codes (R35). -/

namespace Sys2Proof.Machine

/-- The precondition of a phase's operation: PHASE, `HALTED = 0`, `TX_BUSY = 0` (R132, R133, R134, R135, R139). -/
def State.enabled (s : State) (p : Phase) : Bool :=
  decide (s.phase = p) && !s.halted && !s.txBusy

/-- The window in which `cfg_ok` and `cfg_bit_order` are sampled: reset release (R177, R210). -/
def State.samplesConfig (s : State) : Bool := s.inReset && !s.cur.rst

/-- The window in which the source's failure is sampled: ACQUIRE (R177). -/
def State.samplesSource (s : State) : Bool :=
  decide (s.phase = .acquire) && !s.halted && !s.txBusy && !s.inReset && !s.cur.rst

/-- The window in which `tx_err` is sampled: `TX_BUSY = 1` (R177). -/
def State.samplesTxErr (s : State) : Bool := s.txBusy && !s.halted && !s.inReset && !s.cur.rst

/-- TX has been given the buffer and has not driven its first tick: the submit latency (R136). -/
def State.beforeFirstTick (s : State) : Bool :=
  decide (s.symIdx = 0) && decide (s.half = .first) && decide (s.ticksLeft = s.firstTicks 0)

/-- TX has driven the last tick and completion is not signalled yet: the completion latency (R138). -/
def State.afterLastTick (s : State) : Bool := decide (s.symIdx = s.cfg.bufferLen)

/-- Where a suspension or latency has a minimum and no maximum, so that `hold` may lengthen it by a tick
(R133, R136, R138, R139, R222 (b); log 10). ACQUIRE waits for its source, HALTED for ever, neither by `hold`. -/
def State.canHold (s : State) : Bool :=
  if s.halted then false
  else if s.txBusy then !s.cur.txErr && (s.beforeFirstTick || s.afterLastTick)
  else
    match s.phase with
    | .acquire => false
    | .encode => true
    | .frame => true
    | .transmit => true
    | .idle => decide (s.idleCnt = 0)
    | .halted => false

/-- This step is one more tick of a suspension or latency. -/
def State.held (s : State) : Bool := s.cur.hold && s.canHold

/-- The values of the control and status registers CR0 to CR5 as numbers (R36). -/
def State.controlRegisters (s : State) : List Nat :=
  [s.bitOrderQ.code, s.phase.code.toNat, s.txBusy.toNat, s.halted.toNat, s.faultCause.code.toNat, s.faultInfo]

/-- The output ports (R39). -/
structure Outputs where
  srcReady : Bool
  dout : BitVec 1
  phase : BitVec 3
  busy : Bool
  halted : Bool
  faultCause : BitVec 2
  deriving DecidableEq, Repr

/-- What the output ports show: `src_ready` is 1 only in ACQUIRE and never in reset (R39, R210). -/
def State.outputs (s : State) : Outputs where
  srcReady := s.samplesSource
  dout := BitVec.ofNat 1 s.dout.code
  phase := s.phase.code
  busy := s.txBusy
  halted := s.halted
  faultCause := s.faultCause.code

end Sys2Proof.Machine
end

