-- ==== Sys2Proof/Machine/Loop.lean ====
section
/-! DEFINITION. The operations PHASE selects: ACQUIRE, ENCODE, FRAME, TRANSMIT, IDLE, HALT (R90), each as the
micro-steps the spec gives it (R130, R24; log 2). -/

namespace Sys2Proof.Machine

/-- ACQUIRE on an operation-level answer (R131, R132); no tick passes. -/
def acquireAnswer (a : SrcAnswer) (s : State) : Host.Outcome State Fault Refusal :=
  match a with
  | .full d => if d.length = s.cfg.frameLen then .next (s.takeFrame d) else .refused (.sourceContract a)
  | .short k => if k < s.cfg.frameLen then .next (s.failAcquire k) else .refused (.sourceContract a)
  | .error k => if k < s.cfg.frameLen then .next (s.failAcquire k) else .refused (.sourceContract a)

/-- ACQUIRE's micro-step form on one tick without failure (R132): a byte is transferred if `src_valid`, else
LOOP stays suspended. -/
def acquireTick (s : State) : Host.Outcome State Fault Refusal :=
  if s.cur.srcValid then
    if s.acqCount < s.cfg.frameLen then .next (s.takeByte s.cur.srcData).tick else .fault .frameIndexOutOfRange
  else .next s.tick

/-- ACQUIRE (R132). `src_fail` beats progress and the byte presented with it is not stored (R177). -/
def execAcquire (s : State) : Host.Outcome State Fault Refusal :=
  if s.enabled .acquire then
    if s.cur.srcFail then .next (s.failAcquire s.acqCount).tick
    else
      match s.cur.srcAnswer with
      | some a => acquireAnswer a s
      | none => acquireTick s
  else .refused (.notEnabled .acquire)

/-- ENCODE (R133), one byte a step. -/
def execEncode (s : State) : Host.Outcome State Fault Refusal :=
  if s.enabled .encode then
    if s.byteIdx < s.cfg.frameLen then
      match s.readFb s.byteIdx with
      | some b => .next (s.encodeWindow b)
      | none => .fault .unwrittenFrameByte
    else .fault .frameIndexOutOfRange
  else .refused (.notEnabled .encode)

/-- FRAME (R134). -/
def execFrame (s : State) : Host.Outcome State Fault Refusal :=
  if s.enabled .frame then .next s.closeFrame else .refused (.notEnabled .frame)

/-- TRANSMIT (R135). With `TX_BUSY = 0` it submits. With `TX_BUSY = 1` LOOP is in its await: an error of the
transmitter raises the TRANSMIT fault, and without one LOOP waits (TX's completion resolves the await, R138). -/
def execTransmit (s : State) : Host.Outcome State Fault Refusal :=
  if decide (s.phase = .transmit) && !s.halted then
    if s.txBusy then
      if s.cur.txErr then .next s.failTransmission else .next s
    else
      match s.buffer with
      | some buf => .next (s.submit buf)
      | none => .fault .unwrittenPulseSymbol
  else .refused (.notEnabled .transmit)

/-- IDLE (R139): a tick of the wait, or, when IDLE_CNT is 0, the end of the phase. -/
def execIdle (s : State) : Host.Outcome State Fault Refusal :=
  if s.enabled .idle then
    if s.idleCnt = 0 then .next s.enterAcquire else .next s.countDown
  else .refused (.notEnabled .idle)

/-- HALT (R176): no state change. -/
def execHalt (s : State) : Host.Outcome State Fault Refusal :=
  if decide (s.phase = .halted) && s.halted then .next s else .refused (.notEnabled .halt)

end Sys2Proof.Machine
end

