-- ==== Sys2Proof/Machine/Transmitter.lean ====
section
/-! DEFINITION. The steps of TX: TX_EMIT and TX_DONE (R136, R137, R138). -/

namespace Sys2Proof.Machine

/-- TX_EMIT on the symbol it stands at (R137, R37 (c)): one tick of the present half while ticks are left, then
half 1, then the next symbol. A half of duration 0 drives nothing, and no tick passes between halves or symbols. -/
def emitSymbol (p : PulseSymbol) (s : State) : State :=
  if s.ticksLeft = 0 then
    match s.half with
    | .first => s.toSecondHalf p
    | .second => s.toNextSymbol
  else s.drive (p.level s.half)

/-- TX_EMIT (R137), enabled when `TX_BUSY = 1` and `SYM_IDX ≤ 24N`. -/
def execTxEmit (s : State) : Host.Outcome State Fault Refusal :=
  if s.txBusy && decide (s.symIdx ≤ s.cfg.lastSlot) then
    match s.readPb s.symIdx with
    | some p => .next (emitSymbol p s)
    | none => .fault .unwrittenPulseSymbol
  else .refused (.notEnabled .txEmit)

/-- TX_DONE (R138), enabled when `TX_BUSY = 1` and `SYM_IDX = 24N + 1`: DOUT Low, TX_BUSY 0, and the
completion, which LOOP's await in TRANSMIT takes in the same step (log 9). -/
def execTxDone (s : State) : Host.Outcome State Fault Refusal :=
  if s.txBusy && decide (s.symIdx = s.cfg.bufferLen) then .next s.endTransmission.resumeAfterCompletion
  else .refused (.notEnabled .txDone)

end Sys2Proof.Machine
end

