-- ==== Sys2Proof/Machine/Dispatch.lean ====
section
/-! DEFINITION. One arm per constructor of Instr. -/

namespace Sys2Proof.Machine

def exec (i : Instr) (s : State) : Host.Outcome State Fault Refusal :=
  match i with
  | .acquire => Sys2Proof.Machine.execAcquire s
  | .encode => Sys2Proof.Machine.execEncode s
  | .frame => Sys2Proof.Machine.execFrame s
  | .transmit => Sys2Proof.Machine.execTransmit s
  | .idle => Sys2Proof.Machine.execIdle s
  | .halt => Sys2Proof.Machine.execHalt s
  | .txEmit => Sys2Proof.Machine.execTxEmit s
  | .txDone => Sys2Proof.Machine.execTxDone s
  | .encodeByte o b => Sys2Proof.Machine.execEncodeByte o b s
  | .decodeSymbol p => Sys2Proof.Machine.execDecodeSymbol p s
  | .s0 => Sys2Proof.Machine.execS0 s
  | .s1 => Sys2Proof.Machine.execS1 s
  | .sr => Sys2Proof.Machine.execSR s

end Sys2Proof.Machine
end

