-- ==== Sys2Proof/Machine/Fetch.lean ====
section
/-! DEFINITION. What the step performs next (R90): the word it fetches, what goes on around exec, and how a word
of the opcode table is placed so that the next step fetches it. -/

namespace Sys2Proof.Machine

/-- A function or symbol word waits to be evaluated (log 13). -/
def State.callPending (s : State) : Bool :=
  match s.call with
  | some k => k.fmt.isCall
  | none => false

/-- The TX step the state enables (R90): TX_EMIT while `SYM_IDX ≤ 24N`, else TX_DONE (log 14). -/
def State.txStepCode (s : State) : Code := ⟨.txStep, bytesOf 1 (if s.symIdx ≤ s.cfg.lastSlot then 0 else 1)⟩

/-- The word of the agent whose turn it is: HALT once halted (R176); while `TX_BUSY = 1` TX's step, unless
`tx_err` resolves LOOP's await in TRANSMIT (R177: a fault beats progress); else the phase's code (R90). -/
def State.selected (s : State) : Code :=
  if s.halted then Phase.halted.asCode
  else if s.txBusy then
    if s.cur.txErr then Phase.transmit.asCode else s.txStepCode
  else s.phase.asCode

/-- The word the step fetches. -/
def State.fetch (s : State) : Code :=
  match s.call with
  | some k => if k.fmt.isCall then k else s.selected
  | none => s.selected

/-- What the step adds after exec. A call takes no time and uses no draw (R111); it is cleared. Any other
operation uses up the step's draw, and a halted block lets a tick pass (log 18). -/
def State.settle (s t : State) : State :=
  if s.callPending then { t with call := none }
  else if s.halted then t.tick.pop
  else t.pop

/-- The next draw, if one is listed, brings no reset and no wait. -/
def quietHead : List Inputs → List Inputs
  | [] => []
  | d :: ds => { d with rst := false, hold := false } :: ds

/-- The slots below `n` that nothing has written get a value; what is written stays. -/
def fillUnwritten {α : Type} (v : α) : Nat → List (Nat × α) → List (Nat × α)
  | 0, m => m
  | n + 1, m =>
    match Memory.read m n with
    | some _ => fillUnwritten v n m
    | none => fillUnwritten v n (Memory.write m n v)

/-- The block at the boundary of a phase, running, out of reset, TX at rest. -/
def State.atPhase (s : State) (p : Phase) : State :=
  { s with
    phase := p
    halted := false
    txBusy := false
    inReset := false
    call := none
    inputs := quietHead s.inputs }

/-- The state `s` with the instruction where the next step fetches it (log 16): PHASE and what the operation's
precondition asks for (R132 to R139, R176), TX's position, or the call slot. -/
def State.place (s : State) (i : Instr) : State :=
  match i with
  | .acquire => { s.atPhase .acquire with acqCount := 0 }
  | .encode => { s.atPhase .encode with byteIdx := 0, fb := fillUnwritten 0 s.cfg.frameLen s.fb }
  | .frame => s.atPhase .frame
  | .transmit => { s.atPhase .transmit with pb := fillUnwritten s.cfg.symSR s.cfg.bufferLen s.pb }
  | .idle => { s.atPhase .idle with idleCnt := s.cfg.idleGapTicks }
  | .halt => { s.atPhase .halted with halted := true }
  | .txEmit =>
    { s.atPhase .transmit with
      txBusy := true, symIdx := 0, half := .first, ticksLeft := 0
      pb := fillUnwritten s.cfg.symSR s.cfg.bufferLen s.pb }
  | .txDone => { s.atPhase .transmit with txBusy := true, symIdx := s.cfg.bufferLen }
  | .encodeByte _ _ => { s with call := some (encode s.cfg i) }
  | .decodeSymbol _ => { s with call := some (encode s.cfg i) }
  | .s0 => { s with call := some (encode s.cfg i) }
  | .s1 => { s with call := some (encode s.cfg i) }
  | .sr => { s with call := some (encode s.cfg i) }

/-- A word that is no instruction, presented so that the next step refuses it. -/
def State.placeUndecodable (s : State) (nbits w : Nat) : State :=
  { s with call := some ⟨.symbol, bytesOf (nbits / 8 + 5) w⟩ }

end Sys2Proof.Machine
end

