-- ==== Sys2Proof/Machine/Step.lean ====
section
/-! DEFINITION. One step of the block, and where a word of the opcode table is placed. -/

namespace Sys2Proof.Machine

/-- The decoded word is executed. -/
def runDecoded (s : State) : Decoded → Host.Outcome State Fault Refusal
  | .ok i =>
    match exec i s with
    | .next t => .next (s.settle t)
    | .fault r => .fault r
    | .refused r => .refused r
  | .bad r => .refused (.undecodable r)

/-- One step. An instance whose parameters break R9 is refused. A waiting call is evaluated in no time. Else the
step samples one draw: `rst` (R210), reset release, one more tick of a suspension, or the operation of the agent
whose turn it is. -/
def step (s : State) : Host.Outcome State Fault Refusal :=
  if s.cfg.legal then
    if s.callPending then runDecoded s (decode s.cfg s.fetch)
    else if s.cur.rst then .next s.holdReset.pop
    else if s.inReset then .next (s.releaseReset s.cur.cfgOk s.cur.cfgBitOrder).pop
    else if s.held then .next s.tick.pop
    else runDecoded s (decode s.cfg s.fetch)
  else .refused .illegalConfiguration

/-- Go on with `k` from the next state an outcome gives; a fault or a refusal ends the run. -/
def thenRun (k : State → Host.Outcome State Fault Refusal) :
    Host.Outcome State Fault Refusal → Host.Outcome State Fault Refusal
  | .next t => k t
  | .fault r => .fault r
  | .refused r => .refused r

/-- The state with the instruction of a table word placed where the next step fetches it (log 16). -/
def State.withFetchWord (s : State) (nbits w : Nat) : State :=
  match decodeTableWord nbits w with
  | some i => s.place i
  | none => s.placeUndecodable nbits w

end Sys2Proof.Machine
end

