-- ==== Sys2Proof/Machine/Script.lean ====
section
/-! DEFINITION. The script notation of R93 (D22): what a script's lines make the environment draw, and the
pseudo-operations ENCODE_FRAME and REFRESH. -/

namespace Sys2Proof.Machine

/-- A line of a script (R93). -/
inductive ScriptLine where
  /-- `SRC FULL <bytes>`. -/
  | srcFull (d : List Byte)
  /-- `SRC SHORT <k>`. -/
  | srcShort (k : Nat)
  /-- `SRC ERROR <k>`. -/
  | srcError (k : Nat)
  /-- `SRC NEVER`. -/
  | srcNever
  /-- `TX OK`. -/
  | txOk
  /-- `TX ERR`. -/
  | txErr
  deriving DecidableEq, Repr

/-- `CONFIG N=<n> T=(..) RST=(..) GAP=<g>`: the parameters of the instance, the others as in the reference
configuration; `ORDER` is the input `cfg_bit_order` (R93, R28). The whole gap stands in LATCH_TICKS (log 27). -/
def scriptConfig (n t0h t0l t1h t1l rst0 rst1 gap : Nat) : Config :=
  { Config.reference with
    ledCount := n, t0h := t0h, t0l := t0l, t1h := t1h, t1l := t1l, rst0 := rst0, rst1 := rst1
    latchTicks := gap, framePeriodTicks := 0 }

/-- `RESET cfg_ok=<v>` on an instance with the given parameters and order: the state after release (R210). -/
def scriptStart (c : Config) (o : BitOrder) (cfgOk : Bool) : State :=
  State.releaseReset { State.reset with cfg := c } cfgOk o

/-- What the environment draws next and the lines left: one SRC line per ACQUIRE, one TX line per TRANSMIT,
`TX OK` used up at completion (R93). A script with no line for what is asked draws nothing. DESIGN CHOICE (log 27):
R93 and R173 leave the moment of a `TX ERR` line's error open, any from the submit to completion; here it is the first
step after the submit. An SRC line's answer comes on the first step of its ACQUIRE, and no latency is lengthened. -/
def scriptDraw (ls : List ScriptLine) (s : State) : Inputs × List ScriptLine :=
  match ls with
  | [] => (Inputs.idle, [])
  | l :: rest =>
    if s.phase = .acquire then
      match l with
      | .srcFull d => ({ Inputs.idle with srcAnswer := some (.full d) }, rest)
      | .srcShort k => ({ Inputs.idle with srcAnswer := some (.short k) }, rest)
      | .srcError k => ({ Inputs.idle with srcAnswer := some (.error k) }, rest)
      | .srcNever => (Inputs.idle, ls)
      | .txOk => (Inputs.idle, ls)
      | .txErr => (Inputs.idle, ls)
    else if s.txBusy then
      match l with
      | .txErr => ({ Inputs.idle with txErr := true }, rest)
      | .txOk => (Inputs.idle, if s.symIdx = s.cfg.bufferLen then rest else ls)
      | .srcFull _ => (Inputs.idle, ls)
      | .srcShort _ => (Inputs.idle, ls)
      | .srcError _ => (Inputs.idle, ls)
      | .srcNever => (Inputs.idle, ls)
    else (Inputs.idle, ls)

/-- `n` steps of the block under a script. -/
def runScript : Nat → List ScriptLine → State → Host.Outcome State Fault Refusal
  | 0, _, s => .next s
  | n + 1, ls, s =>
    thenRun (runScript n (scriptDraw ls s).2) (step { s with inputs := [(scriptDraw ls s).1] })

/-- The pseudo-operation ENCODE_FRAME: ENCODE followed by FRAME (R93, R141), as what it leaves in PB. -/
def encodeFramePb (s : State) (f : List Byte) : List (Nat × PulseSymbol) :=
  Memory.writeSpan s.pb 0 (buildPb s.cfg s.bitOrderQ f)

/-- The pseudo-operation REFRESH: the phases of one full iteration in order (R93, R130). -/
def refreshPhases : List Phase := [.acquire, .encode, .frame, .transmit, .idle]

end Sys2Proof.Machine
end

