-- ==== Sys2Proof/Safety.lean ====
section
/-! DEFINITION. What a safe state of the block is: the invariants the spec gives it (R29, R30, R142, R147, R215, R216),
in three layers. `Shape` is about the registers and the form of the buffers, `Contents` about what the buffers and the
submission log hold, `Line` about the data line and its trace. -/

namespace Sys2Proof.Machine

/-- The registers and the form of the buffers. -/
structure Shape (s : State) : Prop where
  /-- The parameters are a configuration of this block (R9). -/
  legal : s.cfg.legal = true
  /-- FB is in canonical form and lies in 0 .. 3N-1 (R50). -/
  fbForm : Memory.wf s.cfg.frameLen s.fb = true
  /-- PB is in canonical form and lies in 0 .. 24N (R50). -/
  pbForm : Memory.wf s.cfg.bufferLen s.pb = true
  /-- Every symbol in PB is a Pulse Symbol of the instance (R82). -/
  pbFits : ∀ e ∈ s.pb, e.2.d0 < 2 ^ s.cfg.durW ∧ e.2.d1 < 2 ^ s.cfg.durW
  /-- HALTED is set exactly in the phase HALTED (R175, R181). -/
  haltedPhase : s.halted = true ↔ s.phase = .halted
  /-- A cause is recorded exactly when the block is halted (R27). -/
  causeHalted : s.halted = true ↔ s.faultCause ≠ .none
  /-- FAULT_INFO is 0 .. 3N (R20). -/
  infoBound : s.faultInfo ≤ s.cfg.frameLen
  /-- FAULT_INFO is 0 for every cause but SOURCE (R27). -/
  infoSource : s.faultCause ≠ .source → s.faultInfo = 0
  /-- `TX_BUSY = 1` implies `PHASE = TRANSMIT` (R215). -/
  busyPhase : s.txBusy = true → s.phase = .transmit
  /-- ACQ_COUNT is 0 .. 3N, and ACQUIRE still has a byte to take (R24). -/
  acqBound : s.acqCount ≤ s.cfg.frameLen
  acqOpen : s.phase = .acquire → s.acqCount < s.cfg.frameLen
  /-- BYTE_IDX is 0 .. 3N; ENCODE still has a byte to encode; FRAME comes after the last (R24). -/
  byteBound : s.byteIdx ≤ s.cfg.frameLen
  byteOpen : s.phase = .encode → s.byteIdx < s.cfg.frameLen
  byteDone : s.phase = .frame → s.byteIdx = s.cfg.frameLen
  /-- SYM_IDX is 0 .. 24N + 1 (R24). -/
  symBound : s.symIdx ≤ s.cfg.bufferLen
  /-- IDLE_CNT is 0 .. IDLE_GAP_TICKS (R26). -/
  idleBound : s.idleCnt ≤ s.cfg.idleGapTicks
  /-- TICKS_LEFT is 0 .. 2^DUR_W - 1 (R37 (c)). -/
  ticksBound : s.ticksLeft < 2 ^ s.cfg.durW

/-- What the buffers and the log hold. -/
structure Contents (s : State) : Prop where
  /-- In ACQUIRE the bytes already counted are in FB (R24). -/
  acquired : s.phase = .acquire → ∀ i < s.acqCount, (s.readFb i).isSome = true
  /-- In ENCODE and FRAME, FB holds a whole frame and PB the windows of the bytes before BYTE_IDX (R133, R216). -/
  encoded : s.phase = .encode ∨ s.phase = .frame → ∃ f, s.frame = some f ∧
    Memory.readSpan s.pb 0 (8 * s.byteIdx) = some (encodeBytes s.cfg s.bitOrderQ (f.take s.byteIdx))
  /-- In TRANSMIT, PB is `build_pb(FB)` (R141). -/
  built : s.phase = .transmit → ∃ f, s.frame = some f ∧ s.buffer = some (buildPb s.cfg s.bitOrderQ f)
  /-- While a transmission is in flight, PB equals the last log entry (R215). -/
  borrowed : s.txBusy = true → s.log.getLast? = s.buffer
  /-- Every log entry was built from a whole frame (R146). -/
  logged : ∀ e ∈ s.log, ∃ f : List Byte, f.length = s.cfg.frameLen ∧ e = buildPb s.cfg s.bitOrderQ f

/-- The ticks of half 1 of a symbol that is in its half 0. -/
def secondHalfToCome (p : PulseSymbol) : Half → List Level
  | .first => List.replicate p.d1 p.l1
  | .second => []

/-- The ticks TX has still to drive of a buffer in flight (R137): what is left of the present half, the second
half if it is to come, and the symbols after. -/
def State.remaining (s : State) (buf : List PulseSymbol) : List Level :=
  match buf[s.symIdx]? with
  | none => []
  | some p =>
    List.replicate s.ticksLeft (p.level s.half)
      ++ secondHalfToCome p s.half
      ++ ticks (buf.drop (s.symIdx + 1))

/-- How many Low ticks a trace ends with. -/
def trailingLow (t : List Level) : Nat := (t.reverse.takeWhile fun l => decide (l = .low)).length

/-- `TL_last + RST0 + RST1` of a buffer (R147): the Low half of its last data symbol and the reset symbol. -/
def tailLow (c : Config) (buf : List PulseSymbol) : Nat :=
  match buf[c.lastSlot - 1]? with
  | some p => p.d1 + c.rst0 + c.rst1
  | none => 0

/-- The data line. -/
structure Line (s : State) : Prop where
  /-- DOUT is Low whenever no transmission is in flight (R29). -/
  quiet : s.txBusy = false → s.dout = .low
  /-- TX's position lies inside the half it is in (R37 (c)). -/
  position : s.txBusy = true → ∀ p, s.readPb s.symIdx = some p → s.ticksLeft ≤ p.duration s.half
  /-- In flight DOUT is High only in a half-period whose level is High, from its first tick on (R29, R137; log 29). -/
  drivenHigh : s.txBusy = true → s.dout = .high → ∃ p, s.readPb s.symIdx = some p ∧ p.level s.half = .high ∧
    s.ticksLeft < p.duration s.half
  /-- The trace since the submit and the ticks to come are Low ticks of the submit latency, exactly `ticks(PB)`,
  and, only once all symbols are emitted, Low ticks of the completion latency (R94, R137). -/
  emission : s.txBusy = true → s.txMark ≤ s.trace.length ∧ ∀ buf, s.buffer = some buf → ∃ a b : Nat,
    s.trace.drop s.txMark ++ s.remaining buf =
      List.replicate a .low ++ ticks buf ++ List.replicate b .low ∧ (b ≠ 0 → s.symIdx = s.cfg.bufferLen)
  /-- Between a completed transmission and the next submit the line has been Low for the tail of the buffer and for
  the part of the idle gap that has passed (R147). -/
  lowTime : ∀ buf, s.log.getLast? = some buf → s.halted = false → s.txBusy = false →
    tailLow s.cfg buf + s.cfg.idleGapTicks ≤ trailingLow s.trace + (if s.phase = .idle then s.idleCnt else 0)

/-- A safe state. -/
structure Safe (s : State) : Prop where
  shape : Shape s
  contents : Contents s
  line : Line s

/-- `n` steps, stopping at the first fault or refusal. -/
def run : Nat → State → Host.Outcome State Fault Refusal
  | 0, s => .next s
  | n + 1, s => thenRun (run n) (step s)

/-- The draws of the next `n` steps bring no reset. -/
def State.noReset (s : State) (n : Nat) : Prop := ∀ d ∈ s.inputs.take n, d.rst = false

/-- The draws of the next `n` steps bring no reset, no transmitter error and no wait. -/
def State.undisturbed (s : State) (n : Nat) : Prop :=
  ∀ d ∈ s.inputs.take n, d.rst = false ∧ d.txErr = false ∧ d.hold = false

/-- LOOP performs the operation of phase `p`: the phase, running, no transmission in flight (the preconditions of
R132, R133, R134, R135, R139). -/
def State.atBoundary (s : State) (p : Phase) : Prop := s.phase = p ∧ s.halted = false ∧ s.txBusy = false

/-- The block is an instance the spec allows, out of reset, and no call waits. -/
def State.running (s : State) : Prop := s.cfg.legal = true ∧ s.inReset = false ∧ s.call = none

/-- An answer R131 allows: a whole frame, or a failure after fewer than 3N bytes. -/
def SrcAnswer.allowed (c : Config) : SrcAnswer → Prop
  | .full d => d.length = c.frameLen
  | .short k => k < c.frameLen
  | .error k => k < c.frameLen

/-- The phase that follows a phase in the loop (R130, R140). -/
def nextPhase : Phase → Phase
  | .acquire => .encode
  | .encode => .frame
  | .frame => .transmit
  | .transmit => .idle
  | .idle => .acquire
  | .halted => .halted

/-- How many rising edges a trace has, the level before it given. -/
def risingEdges : Level → List Level → Nat
  | _, [] => 0
  | .low, .high :: t => 1 + risingEdges .high t
  | .low, .low :: t => risingEdges .low t
  | .high, l :: t => risingEdges l t

/-- The bits of a frame in the order they are transmitted (R52, R53). -/
def frameBits (o : BitOrder) (f : List Byte) : List Bool := f.flatMap fun b => (List.range 8).map fun k => bitsel o b k

/-- The steps a transmission of `buf` takes from its submit to the entry of IDLE when nothing disturbs it: the
submit, one step a tick, two more a symbol, and TX_DONE. -/
def transmissionSteps (buf : List PulseSymbol) : Nat := 1 + ((ticks buf).length + 2 * buf.length) + 1

end Sys2Proof.Machine
end

