-- ==== Sys2Proof/Certificates/Slice0/Obligations.lean ====
section
/-! DEFINITION. The statements for the provers. Each docstring names the rule of spec/ it formalises; where a clause
is the model's own choice it names the log entry. -/

open Sys2Proof Sys2Proof.Machine

/-! ### Words -/

/-- Every well-formed instruction of a legal instance is read back from its own word (R90, R83; log 14). -/
def Obligations.DecodeEncodeAgree : Prop :=
  ∀ (c : Config) (i : Instr), c.legal = true → i.wellFormed c = true → decode c (encode c i) = .ok i

/-- A word has at most one meaning: what the decoder accepts is exactly the encoder's word, of a well-formed
instruction (R91, R96; log 14). -/
def Obligations.EncodeDecodeAgree : Prop :=
  ∀ (c : Config) (w : Code) (i : Instr), decode c w = .ok i → encode c i = w ∧ i.wellFormed c = true

/-- Words whose bits are written out from the table's encodings decode to what they stand for. The order of the bytes of
the two-byte and four-byte words, little endian, is the model's choice (log 14). -/
def Obligations.SampleWordsDecode : Prop :=
  decode Config.reference ⟨.phase, [0b00000011#8]⟩ = .ok .transmit ∧
  decode Config.reference ⟨.phase, [0b00000111#8]⟩ = .ok .halt ∧
  decode Config.reference ⟨.encodeByte, [0b10110000#8, 0b00000001#8]⟩ = .ok (.encodeByte .lsbFirst 0xB0#8) ∧
  decode Config.reference ⟨.decodeSymbol, [0x0C#8, 0x80#8, 0x0D#8, 0x00#8]⟩ =
    .ok (.decodeSymbol ⟨.high, 12, .low, 13⟩) ∧
  decode Config.reference ⟨.symbol, [0x08#8, 0x80#8, 0x11#8, 0x00#8]⟩ = .ok .s0 ∧
  decode Config.reference ⟨.symbol, [0x10#8, 0x80#8, 0x09#8, 0x00#8]⟩ = .ok .s1 ∧
  decode Config.reference ⟨.symbol, [0x00#8, 0x00#8, 0x00#8, 0x00#8]⟩ = .ok .sr

/-- R91 (a): codes 5 and 6 are no phase's code, and as phase words they, and they alone, are rejected as reserved. -/
def Obligations.ReservedPhaseCodesRejected : Prop :=
  (∀ p : Phase, p.code ≠ 5#3 ∧ p.code ≠ 6#3) ∧
  ∀ (c : Config) (b : Byte), decode c ⟨.phase, [b]⟩ = .bad .reservedPhase ↔ b = 5#8 ∨ b = 6#8

/-- R83: the packed word is below 2^32, holds `l1` in bit 31, `d1` in bits 30:16, `l0` in bit 15 and `d0` in bits
14:0, and nothing is lost in either direction. -/
def Obligations.PackedWordLayout : Prop :=
  (∀ p : PulseSymbol, p.d0 < 2 ^ 15 → p.d1 < 2 ^ 15 →
    p.word < 2 ^ 32 ∧ p.word / 2 ^ 31 = p.l1.code ∧ p.word / 2 ^ 16 % 2 ^ 15 = p.d1 ∧
    p.word / 2 ^ 15 % 2 = p.l0.code ∧ p.word % 2 ^ 15 = p.d0 ∧ symbolOfWord p.word = p) ∧
  ∀ w : Nat, w < 2 ^ 32 → (symbolOfWord w).word = w

/-! ### The Pulse Encoder -/

/-- R110: ENCODE_BYTE always completes, returns exactly eight symbols, `out[k] = sym(bitsel(b, k))`, each High then
Low, and changes nothing but the returned value. -/
def Obligations.EncodeByteReturnsEightSymbols : Prop :=
  ∀ (s : State) (o : BitOrder) (b : Byte), ∃ out : List PulseSymbol,
    exec (.encodeByte o b) s = .next { s with result := .symbols out } ∧ out.length = 8 ∧
    (∀ k, k < 8 → out[k]? = some (if bitsel o b k then ⟨.high, s.cfg.t1h, .low, s.cfg.t1l⟩
      else ⟨.high, s.cfg.t0h, .low, s.cfg.t0l⟩)) ∧
    ∀ p ∈ out, p.l0 = .high ∧ p.l1 = .low

/-- R112, R113 and R114: the two expansions; the LSB-first encoding of a byte is the MSB-first encoding of its reversal,
and each order's output is the other's reversed. -/
def Obligations.EncodeByteInEachOrder : Prop :=
  ∀ (c : Config) (b : Byte),
    encodeByte c .msbFirst b = [c.sym (b.getLsbD 7), c.sym (b.getLsbD 6), c.sym (b.getLsbD 5), c.sym (b.getLsbD 4),
      c.sym (b.getLsbD 3), c.sym (b.getLsbD 2), c.sym (b.getLsbD 1), c.sym (b.getLsbD 0)] ∧
    encodeByte c .lsbFirst b = [c.sym (b.getLsbD 0), c.sym (b.getLsbD 1), c.sym (b.getLsbD 2), c.sym (b.getLsbD 3),
      c.sym (b.getLsbD 4), c.sym (b.getLsbD 5), c.sym (b.getLsbD 6), c.sym (b.getLsbD 7)] ∧
    (∀ i, i < 8 → (revByte b).getLsbD i = b.getLsbD (7 - i)) ∧
    encodeByte c .lsbFirst b = encodeByte c .msbFirst (revByte b) ∧
    ∀ k, k < 8 → (encodeByte c .lsbFirst b)[k]? = (encodeByte c .msbFirst b)[7 - k]?

/-- R115: DECODE_SYMBOL always completes and returns some 1, some 0 or none by the high duration alone, changing
nothing else. -/
def Obligations.DecodeSymbolReturnsBit : Prop :=
  ∀ (s : State) (p : PulseSymbol),
    exec (.decodeSymbol p) s = .next { s with
      result := .bit (if p.d0 = s.cfg.t1h then some true else if p.d0 = s.cfg.t0h then some false else none) } ∧
    (s.cfg.legal = true → decodeSymbol s.cfg ⟨.high, s.cfg.t0h, .low, s.cfg.t0l⟩ = some false ∧
      decodeSymbol s.cfg ⟨.high, s.cfg.t1h, .low, s.cfg.t1l⟩ = some true ∧
      (s.cfg.rst0 ≠ s.cfg.t0h → s.cfg.rst0 ≠ s.cfg.t1h →
        decodeSymbol s.cfg ⟨.low, s.cfg.rst0, .low, s.cfg.rst1⟩ = none))

/-- R116: what `decode_byte` gives on 8 symbols, none exactly if one of them has no bit and else the byte of their
bits; decoding a byte's symbols in the same order gives the byte, in the other order its reversal.
That `decode_byte` answers no byte for another length, so that an answer shows a length of 8, is the model's choice
(log 28); R116 defines it for 8 symbols only. -/
def Obligations.ByteRoundTrip : Prop :=
  ∀ c : Config, c.legal = true →
    (∀ (o : BitOrder) (seq : List PulseSymbol), seq.length = 8 →
      (decodeByte c o seq = none ↔ ∃ p ∈ seq, decodeSymbol c p = none)) ∧
    (∀ (o : BitOrder) (seq : List PulseSymbol) (b : Byte), decodeByte c o seq = some b →
      seq.length = 8 ∧ ∀ k p, seq[k]? = some p → decodeSymbol c p = some (bitsel o b k)) ∧
    ∀ b : Byte, (∀ o : BitOrder, decodeByte c o (encodeByte c o b) = some b) ∧
      decodeByte c .lsbFirst (encodeByte c .msbFirst b) = some (revByte b) ∧
      decodeByte c .msbFirst (encodeByte c .lsbFirst b) = some (revByte b)

/-- R117: eight symbols, the transmitted bit is read from the high duration, and the encoder is injective. -/
def Obligations.BitPropertyOfEncoder : Prop :=
  ∀ (c : Config) (o : BitOrder), c.legal = true →
    (∀ b : Byte, (encodeByte c o b).length = 8) ∧
    (∀ (b : Byte) (k : Nat) (p : PulseSymbol), k < 8 → (encodeByte c o b)[k]? = some p →
      (bitsel o b k = true ↔ p.d0 = c.t1h) ∧ (bitsel o b k = false ↔ p.d0 = c.t0h)) ∧
    ∀ b b' : Byte, encodeByte c o b = encodeByte c o b' → b = b'

/-- R84, R85, R86: each symbol row completes and returns its symbol, changing nothing else; in the reference
configuration the packed words are the table's. -/
def Obligations.SymbolRowsReturnTheirSymbol : Prop :=
  (∀ s : State,
    exec .s0 s = .next { s with result := .symbol ⟨.high, s.cfg.t0h, .low, s.cfg.t0l⟩ } ∧
    exec .s1 s = .next { s with result := .symbol ⟨.high, s.cfg.t1h, .low, s.cfg.t1l⟩ } ∧
    exec .sr s = .next { s with result := .symbol ⟨.low, s.cfg.rst0, .low, s.cfg.rst1⟩ }) ∧
  Config.reference.symS0.word = 0x00118008 ∧ Config.reference.symS1.word = 0x00098010 ∧
  Config.reference.symSR.word = 0

/-! ### ACQUIRE -/

/-- R132, success path on a whole answer: FB holds exactly the frame, ACQ_COUNT is 3N, ENCODE is entered with
BYTE_IDX 0, and nothing else changes. The model's choices: the answer is taken whatever ACQ_COUNT is, also after bytes
over the ports, and then writes the whole frame (log 4), and it puts no tick on the trace (log 10). That this step loads
BYTE_IDX is the model's reading of R24 (log 8). -/
def Obligations.AcquireTakesWholeFrame : Prop :=
  ∀ (s : State) (d : List Byte), s.atBoundary .acquire → s.cur.srcFail = false → s.cur.srcAnswer = some (.full d) →
    d.length = s.cfg.frameLen →
    ∃ t, exec .acquire s = .next t ∧ t.frame = some d ∧
      t = { s with fb := t.fb, acqCount := s.cfg.frameLen, phase := .encode, byteIdx := 0 } ∧
      ∀ i, s.cfg.frameLen ≤ i → t.readFb i = s.readFb i

/-- R132, micro-step form, on one tick without failure or answer: with `src_valid = 1` the byte is stored at ACQ_COUNT
and the last byte enters ENCODE with BYTE_IDX 0 (R24; that this step loads it is the model's reading, log 8); with no
byte LOOP stays suspended (R131). The tick shows DOUT; nothing else changes. -/
def Obligations.AcquireTakesOneTick : Prop :=
  ∀ s : State, s.atBoundary .acquire → s.cur.srcFail = false → s.cur.srcAnswer = none →
    (s.cur.srcValid = false → exec .acquire s = .next { s with trace := s.trace ++ [s.dout] }) ∧
    (s.cur.srcValid = true → s.acqCount < s.cfg.frameLen →
      ∃ t, exec .acquire s = .next t ∧ t.readFb s.acqCount = some s.cur.srcData ∧
        (∀ i, i ≠ s.acqCount → t.readFb i = s.readFb i) ∧
        t = { s with
          fb := t.fb, acqCount := s.acqCount + 1, trace := s.trace ++ [s.dout]
          phase := if s.acqCount + 1 = s.cfg.frameLen then .encode else .acquire
          byteIdx := if s.acqCount + 1 = s.cfg.frameLen then 0 else s.byteIdx })

/-- R132, R172, R175: a short read or stream error after `k` bytes takes the SOURCE fault with FAULT_INFO `k`, whatever
ACQ_COUNT was (log 4). FB is then left open (log 6); PB, the log and every other register are unchanged. That this entry
puts no tick on the trace is the model's choice (log 18). -/
def Obligations.FailedReadTakesSourceFault : Prop :=
  ∀ (s : State) (k : Nat), s.atBoundary .acquire → s.cur.srcFail = false → k < s.cfg.frameLen →
    (s.cur.srcAnswer = some (.short k) ∨ s.cur.srcAnswer = some (.error k)) →
    ∃ t, exec .acquire s = .next t ∧
      t = { s with
        fb := t.fb, freeCount := t.freeCount, acqCount := k, faultCause := .source, faultInfo := k, halted := true
        txBusy := false, dout := .low, phase := .halted }

/-- R132, R177: `src_fail` on a tick takes the SOURCE fault with FAULT_INFO equal to ACQ_COUNT, whatever byte or
answer comes with it: a fault beats progress and the byte is not stored (log 6 for FB, log 18 for the tick). -/
def Obligations.SourceFailureBeatsTransfer : Prop :=
  ∀ s : State, s.atBoundary .acquire → s.cur.srcFail = true →
    ∃ t, exec .acquire s = .next t ∧
      t = { s with
        fb := t.fb, freeCount := t.freeCount, faultCause := .source, faultInfo := s.acqCount, halted := true
        txBusy := false, dout := .low, phase := .halted, trace := s.trace ++ [.low] }

/-! ### ENCODE, FRAME, TRANSMIT, IDLE, HALT -/

/-- R133, one byte: the window `PB[8i .. 8i+7]` of byte `i = BYTE_IDX` holds its eight symbols, every other slot is
unchanged, BYTE_IDX goes on, and the last byte enters FRAME. One byte a step is the model's granularity (log 2), no tick its choice
(log 10). -/
def Obligations.EncodeWritesOneWindow : Prop :=
  ∀ (s : State) (b : Byte), s.atBoundary .encode → s.byteIdx < s.cfg.frameLen → s.readFb s.byteIdx = some b →
    ∃ t, exec .encode s = .next t ∧
      (∀ k, k < 8 → t.readPb (8 * s.byteIdx + k) = some (s.cfg.sym (bitsel s.bitOrderQ b k))) ∧
      (∀ j, j < 8 * s.byteIdx ∨ 8 * s.byteIdx + 8 ≤ j → t.readPb j = s.readPb j) ∧
      t = { s with
        pb := t.pb, byteIdx := s.byteIdx + 1
        phase := if s.byteIdx + 1 = s.cfg.frameLen then .frame else .encode }

/-- R134: `PB[24N]` becomes SR, `PHASE` becomes TRANSMIT, nothing else changes. That FRAME takes no tick is the model's
choice (log 10). -/
def Obligations.FrameWritesResetSymbol : Prop :=
  ∀ s : State, s.atBoundary .frame →
    ∃ t, exec .frame s = .next t ∧ t.readPb s.cfg.lastSlot = some ⟨.low, s.cfg.rst0, .low, s.cfg.rst1⟩ ∧
      (∀ j, j ≠ s.cfg.lastSlot → t.readPb j = s.readPb j) ∧ t = { s with pb := t.pb, phase := .transmit }

/-- R135, the submit: the log gains a copy of PB, SYM_IDX is 0, TX_BUSY is set; neither buffer is written. TX stands
at half 0 of symbol 0 with its whole duration to come (log 12), and the trace's length is marked (log 7). -/
def Obligations.TransmitSubmitsWholeBuffer : Prop :=
  ∀ (s : State) (buf : List PulseSymbol), s.atBoundary .transmit → s.buffer = some buf →
    ∃ t, exec .transmit s = .next t ∧
      t = { s with
        log := s.log ++ [buf], symIdx := 0, txBusy := true, half := .first, ticksLeft := t.ticksLeft
        txMark := s.trace.length } ∧
      ∀ p, buf[0]? = some p → t.ticksLeft = p.d0

/-- R135, R173, R175: in flight, an error of the transmitter takes the TRANSMIT fault; the log keeps its entry (D27),
both buffers and every other register are unchanged, and what the trace held before the submit stays (what follows
is open, log 7). Without an error LOOP waits and changes nothing. -/
def Obligations.TransmitFaultsOnErrorElseWaits : Prop :=
  ∀ s : State, s.phase = .transmit → s.halted = false → s.txBusy = true →
    (s.cur.txErr = true → ∃ t, exec .transmit s = .next t ∧
      t = { s with
        faultCause := .transmit, faultInfo := 0, halted := true, txBusy := false, dout := .low, phase := .halted
        trace := t.trace, freeCount := t.freeCount } ∧
      (s.txMark ≤ s.trace.length → t.trace.take s.txMark = s.trace.take s.txMark)) ∧
    (s.cur.txErr = false → exec .transmit s = .next s)

/-- R139, R26: each tick of IDLE takes one from IDLE_CNT and shows DOUT; at 0 the phase ends and ACQUIRE is entered
with ACQ_COUNT 0 (log 8) and no tick (log 10); nothing else changes. -/
def Obligations.IdleCountsDownThenAcquires : Prop :=
  ∀ s : State, s.atBoundary .idle →
    (s.idleCnt ≠ 0 → exec .idle s = .next { s with idleCnt := s.idleCnt - 1, trace := s.trace ++ [s.dout] }) ∧
    (s.idleCnt = 0 → exec .idle s = .next { s with phase := .acquire, acqCount := 0 })

/-- R176: HALT changes nothing. -/
def Obligations.HaltChangesNothing : Prop :=
  ∀ s : State, s.phase = .halted → s.halted = true → exec .halt s = .next s

/-- R175: fault entry writes cause, info, HALTED, TX_BUSY, DOUT and PHASE and keeps everything else, and a step that
halts the block is such an entry: of CONFIG at reset release, of SOURCE in ACQUIRE, of TRANSMIT in flight, with PB, the
indices, IDLE_CNT and the log as they were (but CONFIG, which reset precedes). -/
def Obligations.HaltingIsFaultEntry : Prop :=
  (∀ (s : State) (c : Cause), s.raiseFault c =
    { s with
      faultCause := c, faultInfo := if c = .source then s.acqCount else 0, halted := true, txBusy := false
      dout := .low, phase := .halted }) ∧
  ∀ s t : State, step s = .next t → s.halted = false → t.halted = true →
    t.txBusy = false ∧ t.dout = .low ∧ t.phase = .halted ∧
    ((t.faultCause = .config ∧ t.faultInfo = 0 ∧ s.inReset = true ∧ s.cur.rst = false ∧ s.cur.cfgOk = false) ∨
     (t.faultCause = .source ∧ t.faultInfo = t.acqCount ∧ s.phase = .acquire ∧ t.pb = s.pb ∧ t.log = s.log ∧
        t.byteIdx = s.byteIdx ∧ t.symIdx = s.symIdx ∧ t.idleCnt = s.idleCnt) ∨
     (t.faultCause = .transmit ∧ t.faultInfo = 0 ∧ s.txBusy = true ∧ s.cur.txErr = true ∧ t.fb = s.fb ∧ t.pb = s.pb ∧
        t.log = s.log ∧ t.acqCount = s.acqCount ∧ t.byteIdx = s.byteIdx ∧ t.symIdx = s.symIdx ∧
        t.idleCnt = s.idleCnt))

/-! ### TX -/

/-- R137, R37 (c): TX_EMIT on a symbol it can read completes. While ticks are left it drives one tick of the level of
the present half; at the end of half 0 it goes on to half 1, at the end of half 1 to the next symbol, both without a
tick. It writes no buffer and no flag. DOUT is Low as soon as a Low half or the
end of the buffer is reached (R29); that it keeps its level before the first tick of a High half is the model's choice
(log 29). -/
def Obligations.TxEmitDrivesThePresentHalf : Prop :=
  ∀ (s : State) (p : PulseSymbol), s.txBusy = true → s.symIdx ≤ s.cfg.lastSlot → s.readPb s.symIdx = some p →
    (s.ticksLeft ≠ 0 → s.half = .first → exec .txEmit s =
      .next { s with dout := p.l0, ticksLeft := s.ticksLeft - 1, trace := s.trace ++ [p.l0] }) ∧
    (s.ticksLeft ≠ 0 → s.half = .second → exec .txEmit s =
      .next { s with dout := p.l1, ticksLeft := s.ticksLeft - 1, trace := s.trace ++ [p.l1] }) ∧
    (s.ticksLeft = 0 → s.half = .first → exec .txEmit s = .next { s with
      half := .second, ticksLeft := p.d1, dout := if p.l1 = .low then .low else s.dout }) ∧
    (s.ticksLeft = 0 → s.half = .second → ∃ t, exec .txEmit s = .next t ∧
      t = { s with symIdx := s.symIdx + 1, half := .first, ticksLeft := t.ticksLeft, dout := t.dout } ∧
      (s.readPb (s.symIdx + 1) = none → t.dout = .low) ∧
      ∀ q, s.readPb (s.symIdx + 1) = some q → t.ticksLeft = q.d0 ∧ t.dout = if q.l0 = .low then .low else s.dout)

/-- R138 with R135: TX_DONE drives DOUT Low, clears TX_BUSY, and its completion takes LOOP from TRANSMIT to IDLE with
IDLE_CNT loaded; nothing else changes. That both happen in one step is the model's reading (log 9). -/
def Obligations.TxDoneCompletesTheTransmission : Prop :=
  ∀ s : State, s.txBusy = true → s.symIdx = s.cfg.lastSlot + 1 → s.phase = .transmit →
    exec .txDone s = .next { s with
      dout := .low, txBusy := false, phase := .idle, idleCnt := s.cfg.latchTicks + s.cfg.framePeriodTicks }

/-! ### Where the model stops -/

/-- Where the model stops by name, and why: a slot nothing has written is not read (U13; log 5), an index outside FB is
not used (R66; log 22), an operation outside its precondition and an answer R131 does not allow are refused (U14; log 4,
log 19). -/
def Obligations.OperationsStopByName : Prop :=
  ∀ s : State,
    (s.atBoundary .encode → s.byteIdx < s.cfg.frameLen → s.readFb s.byteIdx = none →
      exec .encode s = .fault .unwrittenFrameByte) ∧
    (s.atBoundary .encode → s.cfg.frameLen ≤ s.byteIdx → exec .encode s = .fault .frameIndexOutOfRange) ∧
    (s.atBoundary .transmit → s.buffer = none → exec .transmit s = .fault .unwrittenPulseSymbol) ∧
    (s.txBusy = true → s.symIdx ≤ s.cfg.lastSlot → s.readPb s.symIdx = none →
      exec .txEmit s = .fault .unwrittenPulseSymbol) ∧
    (s.atBoundary .acquire → s.cur.srcFail = false → s.cur.srcAnswer = none → s.cur.srcValid = true →
      s.cfg.frameLen ≤ s.acqCount → exec .acquire s = .fault .frameIndexOutOfRange) ∧
    (¬ s.atBoundary .acquire → exec .acquire s = .refused (.notEnabled .acquire)) ∧
    (¬ s.atBoundary .encode → exec .encode s = .refused (.notEnabled .encode)) ∧
    (¬ s.atBoundary .frame → exec .frame s = .refused (.notEnabled .frame)) ∧
    (¬ (s.phase = .transmit ∧ s.halted = false) → exec .transmit s = .refused (.notEnabled .transmit)) ∧
    (¬ s.atBoundary .idle → exec .idle s = .refused (.notEnabled .idle)) ∧
    (¬ (s.phase = .halted ∧ s.halted = true) → exec .halt s = .refused (.notEnabled .halt)) ∧
    (¬ (s.txBusy = true ∧ s.symIdx ≤ s.cfg.lastSlot) → exec .txEmit s = .refused (.notEnabled .txEmit)) ∧
    (¬ (s.txBusy = true ∧ s.symIdx = s.cfg.bufferLen) → exec .txDone s = .refused (.notEnabled .txDone)) ∧
    (∀ a : SrcAnswer, s.atBoundary .acquire → s.cur.srcFail = false → s.cur.srcAnswer = some a →
      ¬ a.allowed s.cfg → exec .acquire s = .refused (.sourceContract a))

/-! ### One step -/

/-- When the fetched word decodes to an instruction, the step is exec of it. Around exec it clears an evaluated call,
or uses up the draw, a halted block letting a tick pass (log 3, log 13, log 18). A word that does not decode is
refused by name, with the reason (log 13). -/
def Obligations.StepRunsTheDecodedInstruction : Prop :=
  ∀ s : State, s.cfg.legal = true →
    (s.callPending = true ∨ (s.cur.rst = false ∧ s.inReset = false ∧ s.held = false)) →
    (∀ i : Instr, decode s.cfg s.fetch = .ok i →
      (∀ t, exec i s = .next t → step s = .next
        (if s.callPending then { t with call := none }
         else if s.halted then { t with trace := t.trace ++ [t.dout], inputs := t.inputs.tail }
         else { t with inputs := t.inputs.tail })) ∧
      (∀ r, exec i s = .fault r → step s = .fault r) ∧
      (∀ r, exec i s = .refused r → step s = .refused r)) ∧
    ∀ r, decode s.cfg s.fetch = .bad r → step s = .refused (.undecodable r)

/-- R90, R176, R177: which operation the state selects. HALTED before all; in flight TX_EMIT up to symbol 24N and
then TX_DONE, but TRANSMIT's await when `tx_err` is seen; else the phase's operation. -/
def Obligations.StateSelectsTheOperation : Prop :=
  ∀ (c : Config) (s : State), s.callPending = false → decode c s.fetch = .ok
    (if s.halted then .halt
     else if s.txBusy then
       (if s.cur.txErr then .transmit else if s.symIdx ≤ s.cfg.lastSlot then .txEmit else .txDone)
     else match s.phase with
       | .acquire => .acquire
       | .encode => .encode
       | .frame => .frame
       | .transmit => .transmit
       | .idle => .idle
       | .halted => .halt)

/-- A waiting or latency that may last longer does: a `hold` draw outside the exact parts of a transmission lets one
tick pass and changes nothing else (R222 (b), U7, U18; log 10). -/
def Obligations.HoldLengthensAWait : Prop :=
  ∀ s : State, s.cfg.legal = true → s.callPending = false → s.cur.rst = false → s.inReset = false →
    s.cur.hold = true → s.halted = false →
    (s.txBusy = true ∧ s.cur.txErr = false ∧ (s.symIdx = s.cfg.bufferLen ∨
        ∃ p, s.readPb 0 = some p ∧ s.symIdx = 0 ∧ s.half = .first ∧ s.ticksLeft = p.d0)) ∨
      (s.txBusy = false ∧ (s.phase = .encode ∨ s.phase = .frame ∨ s.phase = .transmit ∨
        (s.phase = .idle ∧ s.idleCnt = 0))) →
    step s = .next { s with trace := s.trace ++ [s.dout], inputs := s.inputs.tail }

/-- R210, R38: a tick with `rst = 1`, whatever the block was doing, leaves every register at its reset value, both
buffers unwritten and both logs empty. The model's choices: PHASE, HALTED and FAULT_CAUSE are ACQUIRE, 0 and NONE until
release and BIT_ORDER_Q keeps its value (log 11), HALF and TICKS_LEFT are 0 (log 12), as is txMark (log 7), and an
unwritten slot has no value (log 5). -/
def Obligations.ResetTickSetsEveryRegister : Prop :=
  ∀ s : State, s.cfg.legal = true → s.callPending = false → s.cur.rst = true →
    step s = .next { State.reset with
      cfg := s.cfg, bitOrderQ := s.bitOrderQ, inReset := true, inputs := s.inputs.tail
      call := s.call, result := s.result, freeCount := s.freeCount }

/-- R210, R171: the first tick with `rst = 0` loads BIT_ORDER_Q; with `cfg_ok = 1` the block is in ACQUIRE with its
reset values, with `cfg_ok = 0` it is halted with cause CONFIG. The model's choices: no tick on the trace (log 11), HALF
and TICKS_LEFT at 0 (log 12), as is txMark (log 7), and an unwritten slot has no value (log 5). -/
def Obligations.ReleaseSamplesConfiguration : Prop :=
  ∀ s : State, s.cfg.legal = true → s.callPending = false → s.cur.rst = false → s.inReset = true →
    (s.cur.cfgOk = true → step s = .next { State.reset with
      cfg := s.cfg, bitOrderQ := s.cur.cfgBitOrder, inputs := s.inputs.tail
      call := s.call, result := s.result, freeCount := s.freeCount }) ∧
    (s.cur.cfgOk = false → step s = .next { State.reset with
      cfg := s.cfg, bitOrderQ := s.cur.cfgBitOrder, inputs := s.inputs.tail
      call := s.call, result := s.result, freeCount := s.freeCount
      phase := .halted, halted := true, faultCause := .config })

/-- R38: the values the spec gives the state after a good reset. -/
def Obligations.ResetStateValues : Prop :=
  State.reset.phase = .acquire ∧ State.reset.acqCount = 0 ∧ State.reset.byteIdx = 0 ∧ State.reset.symIdx = 0 ∧
  State.reset.txBusy = false ∧ State.reset.idleCnt = 0 ∧ State.reset.halted = false ∧
  State.reset.faultCause = .none ∧ State.reset.faultInfo = 0 ∧ State.reset.dout = .low ∧
  State.reset.log = [] ∧ State.reset.trace = [] ∧ (∀ i, State.reset.readFb i = none) ∧ ∀ j, State.reset.readPb j = none

/-- R9: a configuration that breaks (a), (c) or (d) is refused by every step. -/
def Obligations.IllegalConfigurationsRefused : Prop :=
  ∀ s : State,
    (s.cfg.t1h = s.cfg.t0h ∨ s.cfg.t0h = 0 ∨ s.cfg.t0l = 0 ∨ s.cfg.t1h = 0 ∨ s.cfg.t1l = 0 ∨
      2 ^ s.cfg.durW ≤ s.cfg.t0h ∨ 2 ^ s.cfg.durW ≤ s.cfg.t0l ∨ 2 ^ s.cfg.durW ≤ s.cfg.t1h ∨
      2 ^ s.cfg.durW ≤ s.cfg.t1l ∨ s.cfg.ledCount = 0) →
    step s = .refused .illegalConfiguration

/-- R177: outside its window an input is ignored and not remembered: the step is the same whatever it shows. -/
def Obligations.InputsOutsideTheirWindowsIgnored : Prop :=
  ∀ (s : State) (d : Inputs) (ds : List Inputs), s.callPending = false →
    (State.samplesSource { s with inputs := d :: ds } = false →
      ∀ (v f : Bool) (b : Byte) (a : Option SrcAnswer),
        step { s with inputs := { d with srcValid := v, srcFail := f, srcData := b, srcAnswer := a } :: ds } =
          step { s with inputs := d :: ds }) ∧
    (State.samplesTxErr { s with inputs := d :: ds } = false →
      ∀ e : Bool, step { s with inputs := { d with txErr := e } :: ds } = step { s with inputs := d :: ds }) ∧
    (State.samplesConfig { s with inputs := d :: ds } = false →
      ∀ (k : Bool) (o : BitOrder),
        step { s with inputs := { d with cfgOk := k, cfgBitOrder := o } :: ds } = step { s with inputs := d :: ds })

/-- R10, R28: no step changes a parameter, and BIT_ORDER_Q is written at reset release and by no other step. -/
def Obligations.ConfigurationIsStatic : Prop :=
  ∀ s t : State, step s = .next t →
    t.cfg = s.cfg ∧
    (t.bitOrderQ ≠ s.bitOrderQ → s.inReset = true ∧ s.cur.rst = false ∧ t.bitOrderQ = s.cur.cfgBitOrder)

/-- R130, R140: a step without reset stays in its phase, goes on to the next phase of the loop, or, from ACQUIRE or
TRANSMIT, halts. -/
def Obligations.PhasesFollowTheLoop : Prop :=
  ∀ s t : State, step s = .next t → s.cur.rst = false → s.inReset = false →
    t.phase = s.phase ∨ t.phase = nextPhase s.phase ∨
      (t.phase = .halted ∧ t.halted = true ∧ (s.phase = .acquire ∨ s.phase = .transmit))

/-- R21, R22, R216, R61 (b): without reset, FB is written only in ACQUIRE and PB only in ENCODE and FRAME, and neither
while a transmission is in flight. -/
def Obligations.BuffersWrittenOnlyInTheirPhases : Prop :=
  ∀ s t : State, step s = .next t → s.cur.rst = false → s.inReset = false →
    ((s.phase ≠ .acquire ∨ s.txBusy = true ∨ s.halted = true) → t.fb = s.fb) ∧
    (((s.phase ≠ .encode ∧ s.phase ≠ .frame) ∨ s.txBusy = true ∨ s.halted = true) → t.pb = s.pb)

/-- R25: TX_BUSY is set only by a submit, and cleared only by TX_DONE, fault entry and reset. -/
def Obligations.BusyFlagChangesOnlyAsStated : Prop :=
  ∀ s t : State, step s = .next t →
    (s.txBusy = false → t.txBusy = true → s.phase = .transmit ∧ s.halted = false ∧ t.symIdx = 0 ∧
      ∃ buf, s.buffer = some buf ∧ t.log = s.log ++ [buf]) ∧
    (s.txBusy = true → t.txBusy = false → s.cur.rst = true ∨ s.inReset = true ∨
      (t.halted = true ∧ t.faultCause = .transmit ∧ s.cur.txErr = true) ∨ s.symIdx = s.cfg.bufferLen)

/-- R36, R39, R90, R170: the six status registers and the output ports as numbers, each code written out, with
`src_ready` only in ACQUIRE and out of reset (R210), and there always (R132) where Shape holds. That it is 0 on the tick
of release too is the model's choice (log 11). -/
def Obligations.StatusOutputsShowTheState : Prop :=
  ∀ s : State, ∃ order phase cause : Nat,
    s.controlRegisters =
      [order, phase, if s.txBusy then 1 else 0, if s.halted then 1 else 0, cause, s.faultInfo] ∧
    order = (match s.bitOrderQ with
      | .msbFirst => 0
      | .lsbFirst => 1) ∧
    phase = (match s.phase with
      | .acquire => 0
      | .encode => 1
      | .frame => 2
      | .transmit => 3
      | .idle => 4
      | .halted => 7) ∧
    cause = (match s.faultCause with
      | .none => 0
      | .config => 1
      | .source => 2
      | .transmit => 3) ∧
    s.outputs.phase.toNat = phase ∧ s.outputs.faultCause.toNat = cause ∧
    s.outputs.busy = s.txBusy ∧ s.outputs.halted = s.halted ∧ (s.outputs.dout = 1#1 ↔ s.dout = .high) ∧
    (s.outputs.srcReady = true → s.phase = .acquire ∧ s.halted = false ∧ s.txBusy = false ∧
      s.inReset = false ∧ s.cur.rst = false) ∧
    (Shape s → s.phase = .acquire → s.inReset = false → s.cur.rst = false → s.outputs.srcReady = true)

/-! ### Invariants -/

/-- The states a reset leaves are safe: State.reset (log 1, log 11), and for every legal configuration and either order
the block held in reset, released with `cfg_ok = 1`, and released with `cfg_ok = 0`, whatever the model's own fields
that reset keeps hold. -/
def Obligations.ResetIsSafe : Prop :=
  Safe State.reset ∧
  ∀ (c : Config) (o : BitOrder) (held : Bool) (ds : List Inputs) (w : Option Code) (r : CallResult) (n : Nat),
    c.legal = true →
    Safe { State.reset with
      cfg := c, bitOrderQ := o, inReset := held, inputs := ds, call := w, result := r, freeCount := n } ∧
    Safe { State.reset with
      cfg := c, bitOrderQ := o, inputs := ds, call := w, result := r, freeCount := n
      phase := .halted, halted := true, faultCause := .config }

/-- Every step keeps the registers in their ranges, the flags consistent and both buffers in canonical form. -/
def Obligations.StepKeepsShape : Prop := ∀ s t : State, Shape s → step s = .next t → Shape t

/-- Every step keeps what the buffers and the log hold: the bytes acquired, the windows encoded, PB equal to
`build_pb(FB)` at the submit and to the last log entry in flight, every entry built from a whole frame. -/
def Obligations.StepKeepsContents : Prop :=
  ∀ s t : State, Shape s → Contents s → step s = .next t → Contents t

/-- Every step keeps the rules of the line: Low outside transmissions and High inside one only in a High half,
exactly `ticks(PB)` on the trace, and the low time between transmissions. That DOUT is High from the first tick of a High
half only, not already at its zero-time entry, is the model's choice (log 29). -/
def Obligations.StepKeepsLine : Prop :=
  ∀ s t : State, Shape s → Contents s → Line s → step s = .next t → Line t

/-- A safe state is never stuck: with an answer R131 allows and no call waiting every step answers a next state, so
none of the model's own faults can be reached. -/
def Obligations.SafeStatesStep : Prop :=
  ∀ s : State, Safe s → s.callPending = false → (∀ a, s.cur.srcAnswer = some a → a.allowed s.cfg) →
    ∃ t, step s = .next t

/-- R142: in a safe state every log entry has length 24N + 1, ends in SR, Low on both halves, and its first 24N
elements are each S0 or S1. -/
def Obligations.LogEntriesAreFrames : Prop :=
  ∀ s : State, Safe s → ∀ e ∈ s.log,
    e.length = s.cfg.ledCount * 24 + 1 ∧ e.getLast? = some s.cfg.symSR ∧
    s.cfg.symSR.l0 = .low ∧ s.cfg.symSR.l1 = .low ∧
    ∀ j p, j < s.cfg.ledCount * 24 → e[j]? = some p → p = s.cfg.symS0 ∨ p = s.cfg.symS1

/-- R215: in a safe state `TX_BUSY = 1` implies `PHASE = TRANSMIT` and PB equal to the last log entry, and every step
without reset leaves it so while the transmission is in flight. -/
def Obligations.BufferImmutableInFlight : Prop :=
  ∀ s t : State, Safe s → s.txBusy = true → step s = .next t → s.cur.rst = false → s.inReset = false →
    s.phase = .transmit ∧ (∃ buf, s.buffer = some buf ∧ s.log.getLast? = some buf) ∧ t.pb = s.pb ∧ t.fb = s.fb ∧
    t.log = s.log

/-- R143: two submits of equal frames, in any two safe states of one configuration and order, make equal log
entries, field for field. -/
def Obligations.EqualFramesGiveEqualEntries : Prop :=
  ∀ s s' t t' : State, Safe s → Safe s' → s.cfg = s'.cfg → s.bitOrderQ = s'.bitOrderQ → s.frame = s'.frame →
    s.atBoundary .transmit → s'.atBoundary .transmit → exec .transmit s = .next t → exec .transmit s' = .next t' →
    ∃ e, t.log = s.log ++ [e] ∧ t'.log = s'.log ++ [e]

/-- R94, R137: when TX_DONE runs in a safe state, the trace since the submit is exactly `ticks` of the submitted
buffer, between Low ticks of the two latencies. -/
def Obligations.CompletedTraceIsTicksOfBuffer : Prop :=
  ∀ s t : State, Safe s → exec .txDone s = .next t →
    ∃ (buf : List PulseSymbol) (a b : Nat), s.log.getLast? = some buf ∧ t.trace.drop s.txMark =
      List.replicate a .low ++ ticks buf ++ List.replicate b .low

/-- R147: at every submit after a first one the line has been Low, unbroken, for at least
`TL_last + RST0 + RST1 + IDLE_GAP_TICKS` ticks. -/
def Obligations.SubmitComesAfterTheLowTime : Prop :=
  ∀ s t : State, Safe s → step s = .next t → s.log.length < t.log.length →
    ∀ buf, s.log.getLast? = some buf →
      tailLow s.cfg buf + s.cfg.latchTicks + s.cfg.framePeriodTicks ≤ trailingLow t.trace

/-! ### Frames and waveforms -/

/-- R145: decoding the buffer built from a frame gives the frame, whatever stands in the last slot, so `build_pb` is
injective. -/
def Obligations.FrameRoundTrip : Prop :=
  ∀ (c : Config) (o : BitOrder) (f : List Byte), c.legal = true → f.length = c.frameLen →
    decodePb c o (buildPb c o f) = some f ∧
    (∀ p : PulseSymbol, decodePb c o (encodeBytes c o f ++ [p]) = some f) ∧
    ∀ g : List Byte, g.length = c.frameLen → buildPb c o f = buildPb c o g → f = g

/-- R144: an all-zero frame is 24N symbols S0 and then SR; with one LED the buffer has 25 entries. -/
def Obligations.ZeroFrameIsAllZeroSymbols : Prop :=
  (∀ (c : Config) (o : BitOrder), buildPb c o (List.replicate c.frameLen 0#8) =
    List.replicate c.lastSlot ⟨.high, c.t0h, .low, c.t0l⟩ ++ [c.symSR]) ∧
  ∀ (c : Config) (o : BitOrder) (f : List Byte), c.ledCount = 1 → f.length = c.frameLen → (buildPb c o f).length = 25

/-- R94: with `RST0 = RST1 = 0` the trace of a filled buffer has `z (T0H + T0L) + o (T1H + T1L)` ticks, `o` and `z` the
numbers of 1 and 0 bits of the frame. The rules define `build_pb` for
3N bytes; that the count holds for every length is the model's choice (log 28). -/
def Obligations.TraceLengthOfAFrame : Prop :=
  ∀ (c : Config) (o : BitOrder) (f : List Byte), c.rst0 = 0 → c.rst1 = 0 →
    (ticks (buildPb c o f)).length =
      (frameBits o f).count false * (c.t0h + c.t0l) + (frameBits o f).count true * (c.t1h + c.t1l)

/-- R137: the number of rising edges in a transmission is 24N, one for each bit. -/
def Obligations.OneRisingEdgePerBit : Prop :=
  ∀ (c : Config) (o : BitOrder) (f : List Byte), c.legal = true → f.length = c.frameLen →
    risingEdges .low (ticks (buildPb c o f)) = 24 * c.ledCount

/-- R87: the tick count of a nominal time is `floor(t / TICK_NS + 1/2)`, for every positive rational tick; the four data
durations are those of 400, 850, 800 and 450 ns; and the rule's four examples. -/
def Obligations.TickCountRoundsToNearest : Prop :=
  (∀ num den t : Nat, 0 < num → 0 < den →
    (tickCount num den t : ℤ) = ⌊(t : ℚ) / ((num : ℚ) / (den : ℚ)) + 1 / 2⌋) ∧
  (∀ c : Config, c.withDerivedTicks = { c with
    t0h := tickCount c.tickNum c.tickDen 400, t0l := tickCount c.tickNum c.tickDen 850
    t1h := tickCount c.tickNum c.tickDen 800, t1l := tickCount c.tickNum c.tickDen 450 }) ∧
  [400, 850, 800, 450].map (tickCount 50 1) = [8, 17, 16, 9] ∧
  [400, 850, 800, 450].map (tickCount 25 1) = [16, 34, 32, 18] ∧
  [400, 850, 800, 450].map (tickCount 25 2) = [32, 68, 64, 36] ∧
  [400, 850, 800, 450].map (tickCount 100 1) = [4, 9, 8, 5]

/-! ### Many steps -/

/-- R133, whole phase: from its entry ENCODE takes one step a byte (log 2) and, without `hold`, no tick (the model's
choice, log 10); then every data slot holds its symbol,
`PB[24N]` and FB are untouched, and the phase is FRAME. -/
def Obligations.EncodePhaseFillsTheBuffer : Prop :=
  ∀ (s : State) (f : List Byte), s.running → s.atBoundary .encode → s.byteIdx = 0 → s.frame = some f →
    s.undisturbed s.cfg.frameLen →
    ∃ t, run s.cfg.frameLen s = .next t ∧
      t = { s with pb := t.pb, byteIdx := s.cfg.frameLen, phase := .frame, inputs := s.inputs.drop s.cfg.frameLen } ∧
      (∀ i k b, f[i]? = some b → k < 8 → t.readPb (8 * i + k) = some (s.cfg.sym (bitsel s.bitOrderQ b k))) ∧
      ∀ j, s.cfg.lastSlot ≤ j → t.readPb j = s.readPb j

/-- R137, whole symbol: from the start of symbol `p` TX drives `l0` for exactly `d0` ticks and `l1` for exactly `d1`
ticks, with none between, and stands at the start of the next symbol, DOUT Low if it leaves or enters a Low half or there
is no next symbol (R29), else at the last level driven (the model's choice, log 29). -/
def Obligations.SymbolIsDrivenForItsExactTicks : Prop :=
  ∀ (s : State) (p : PulseSymbol), s.running → s.halted = false → s.txBusy = true → s.symIdx ≤ s.cfg.lastSlot →
    s.readPb s.symIdx = some p → s.half = .first → s.ticksLeft = p.d0 →
    s.undisturbed (p.d0 + p.d1 + 2) →
    ∃ t, run (p.d0 + p.d1 + 2) s = .next t ∧
      t.trace = s.trace ++ List.replicate p.d0 p.l0 ++ List.replicate p.d1 p.l1 ∧
      t.symIdx = s.symIdx + 1 ∧ t.half = .first ∧ (s.readPb (s.symIdx + 1) = none → t.dout = .low) ∧
      (∀ q, s.readPb (s.symIdx + 1) = some q → t.ticksLeft = q.d0 ∧
        t.dout = if q.l0 = .low ∨ p.l1 = .low then .low else if 0 < p.d1 then .high else if 0 < p.d0 then p.l0
          else s.dout) ∧
      t = { s with
        symIdx := t.symIdx, half := t.half, ticksLeft := t.ticksLeft, dout := t.dout, trace := t.trace
        inputs := s.inputs.drop (p.d0 + p.d1 + 2) }

/-- R135 to R138: undisturbed, a transmission shows exactly `ticks(PB)`, completes in the stated number of steps, is in
the log, leaves both buffers as they were and the block in IDLE with the whole gap to wait. That the two latencies take
no tick without `hold` is the model's choice (log 10), as are the number of steps (log 2, log 9), the moment IDLE_CNT is
loaded (log 8) and the mark of the trace's length (log 7). -/
def Obligations.TransmissionRunsToCompletion : Prop :=
  ∀ (s : State) (buf : List PulseSymbol), s.running → s.atBoundary .transmit → s.buffer = some buf →
    s.undisturbed (transmissionSteps buf) →
    ∃ t, run (transmissionSteps buf) s = .next t ∧
      t = { s with
        log := s.log ++ [buf], trace := s.trace ++ ticks buf, phase := .idle, txBusy := false, dout := .low
        idleCnt := s.cfg.idleGapTicks, symIdx := s.cfg.bufferLen, half := t.half, ticksLeft := t.ticksLeft
        txMark := s.trace.length, inputs := s.inputs.drop (transmissionSteps buf) }

/-- R139, whole phase: IDLE lasts the ticks IDLE_CNT holds, the rule's minimum, and then ACQUIRE is entered. That it
lasts no longer without `hold` is the model's choice (log 10), as are the step that enters ACQUIRE (log 2) and
that it clears ACQ_COUNT (log 8). -/
def Obligations.IdleLastsItsCount : Prop :=
  ∀ s : State, s.running → s.atBoundary .idle → s.undisturbed (s.idleCnt + 1) →
    run (s.idleCnt + 1) s = .next { s with
      phase := .acquire, acqCount := 0, idleCnt := 0
      trace := s.trace ++ List.replicate s.idleCnt s.dout, inputs := s.inputs.drop (s.idleCnt + 1) }

/-- R130: one undisturbed iteration of the loop on an answered frame. The log gains `build_pb` of the frame, the line
shows its ticks and then the idle gap Low, and the block is back in ACQUIRE. That nothing else takes a tick without
`hold` is the model's choice (log 10), as are the number of steps (log 2, log 9) and that the answer is taken whatever
ACQ_COUNT is, also after bytes over the ports (log 4). -/
def Obligations.OneIterationOfTheLoop : Prop :=
  ∀ (s : State) (d : List Byte) (n : Nat), s.running → s.atBoundary .acquire → s.dout = .low →
    s.cur.srcFail = false → s.cur.srcAnswer = some (.full d) → d.length = s.cfg.frameLen →
    n = 1 + s.cfg.frameLen + 1 + transmissionSteps (buildPb s.cfg s.bitOrderQ d) + (s.cfg.idleGapTicks + 1) →
    s.undisturbed n →
    ∃ t, run n s = .next t ∧ t.atBoundary .acquire ∧ t.acqCount = 0 ∧ t.dout = .low ∧ t.frame = some d ∧
      t.log = s.log ++ [buildPb s.cfg s.bitOrderQ d] ∧
      t.trace = s.trace ++ ticks (buildPb s.cfg s.bitOrderQ d) ++ List.replicate s.cfg.idleGapTicks .low

/-- R176: halted, any number of steps without reset, whatever else the inputs do, only let ticks pass. -/
def Obligations.HaltedIsAbsorbing : Prop :=
  ∀ (s : State) (n : Nat), s.running → s.phase = .halted → s.halted = true → s.noReset n →
    run n s = .next { s with
      trace := s.trace ++ List.replicate n s.dout, inputs := s.inputs.drop n }

/-- R146: after a read that fails, by an answer or by `src_fail` on a tick (R132), however many steps follow without
reset, nothing is ever submitted again, TX_BUSY is never set and DOUT is Low. How many Low ticks that shows, none for an
answer, one for the tick of `src_fail` and one a halted step, is the model's choice (log 18), as is that an answer's `k` is FAULT_INFO whatever ACQ_COUNT was
(log 4). -/
def Obligations.NoTransmissionAfterFailedAcquire : Prop :=
  ∀ (s : State) (k n : Nat), s.running → s.atBoundary .acquire →
    ((s.cur.srcFail = false ∧ k < s.cfg.frameLen ∧
        (s.cur.srcAnswer = some (.short k) ∨ s.cur.srcAnswer = some (.error k))) ∨
      (s.cur.srcFail = true ∧ k = s.acqCount)) →
    s.noReset (n + 1) →
    ∃ t, run (n + 1) s = .next t ∧ t.log = s.log ∧ t.txBusy = false ∧ t.dout = .low ∧ t.phase = .halted ∧
      t.halted = true ∧ t.faultCause = .source ∧ t.faultInfo = k ∧
      t.trace = s.trace ++ List.replicate (if s.cur.srcFail then n + 1 else n) .low
end

