-- ==== Sys2Proof/Laws/State.lean ====
section
/-! SUPPORT. One lemma per field per named update of the state, each true by rfl, so that no proof unfolds a record
update; and the few lemmas about the reads that go through them. -/

namespace Sys2Proof.Machine

variable (s : State)

/-! ### State.pop -/

@[simp] theorem pop_cfg : (s.pop).cfg = s.cfg := rfl
@[simp] theorem pop_fb : (s.pop).fb = s.fb := rfl
@[simp] theorem pop_pb : (s.pop).pb = s.pb := rfl
@[simp] theorem pop_phase : (s.pop).phase = s.phase := rfl
@[simp] theorem pop_acqCount : (s.pop).acqCount = s.acqCount := rfl
@[simp] theorem pop_byteIdx : (s.pop).byteIdx = s.byteIdx := rfl
@[simp] theorem pop_symIdx : (s.pop).symIdx = s.symIdx := rfl
@[simp] theorem pop_txBusy : (s.pop).txBusy = s.txBusy := rfl
@[simp] theorem pop_idleCnt : (s.pop).idleCnt = s.idleCnt := rfl
@[simp] theorem pop_halted : (s.pop).halted = s.halted := rfl
@[simp] theorem pop_faultCause : (s.pop).faultCause = s.faultCause := rfl
@[simp] theorem pop_faultInfo : (s.pop).faultInfo = s.faultInfo := rfl
@[simp] theorem pop_bitOrderQ : (s.pop).bitOrderQ = s.bitOrderQ := rfl
@[simp] theorem pop_dout : (s.pop).dout = s.dout := rfl
@[simp] theorem pop_half : (s.pop).half = s.half := rfl
@[simp] theorem pop_ticksLeft : (s.pop).ticksLeft = s.ticksLeft := rfl
@[simp] theorem pop_inReset : (s.pop).inReset = s.inReset := rfl
@[simp] theorem pop_log : (s.pop).log = s.log := rfl
@[simp] theorem pop_trace : (s.pop).trace = s.trace := rfl
@[simp] theorem pop_txMark : (s.pop).txMark = s.txMark := rfl
@[simp] theorem pop_inputs : (s.pop).inputs = s.inputs.tail := rfl
@[simp] theorem pop_call : (s.pop).call = s.call := rfl
@[simp] theorem pop_result : (s.pop).result = s.result := rfl
@[simp] theorem pop_freeCount : (s.pop).freeCount = s.freeCount := rfl

/-! ### State.tick -/

@[simp] theorem tick_cfg : (s.tick).cfg = s.cfg := rfl
@[simp] theorem tick_fb : (s.tick).fb = s.fb := rfl
@[simp] theorem tick_pb : (s.tick).pb = s.pb := rfl
@[simp] theorem tick_phase : (s.tick).phase = s.phase := rfl
@[simp] theorem tick_acqCount : (s.tick).acqCount = s.acqCount := rfl
@[simp] theorem tick_byteIdx : (s.tick).byteIdx = s.byteIdx := rfl
@[simp] theorem tick_symIdx : (s.tick).symIdx = s.symIdx := rfl
@[simp] theorem tick_txBusy : (s.tick).txBusy = s.txBusy := rfl
@[simp] theorem tick_idleCnt : (s.tick).idleCnt = s.idleCnt := rfl
@[simp] theorem tick_halted : (s.tick).halted = s.halted := rfl
@[simp] theorem tick_faultCause : (s.tick).faultCause = s.faultCause := rfl
@[simp] theorem tick_faultInfo : (s.tick).faultInfo = s.faultInfo := rfl
@[simp] theorem tick_bitOrderQ : (s.tick).bitOrderQ = s.bitOrderQ := rfl
@[simp] theorem tick_dout : (s.tick).dout = s.dout := rfl
@[simp] theorem tick_half : (s.tick).half = s.half := rfl
@[simp] theorem tick_ticksLeft : (s.tick).ticksLeft = s.ticksLeft := rfl
@[simp] theorem tick_inReset : (s.tick).inReset = s.inReset := rfl
@[simp] theorem tick_log : (s.tick).log = s.log := rfl
@[simp] theorem tick_trace : (s.tick).trace = s.trace ++ [s.dout] := rfl
@[simp] theorem tick_txMark : (s.tick).txMark = s.txMark := rfl
@[simp] theorem tick_inputs : (s.tick).inputs = s.inputs := rfl
@[simp] theorem tick_call : (s.tick).call = s.call := rfl
@[simp] theorem tick_result : (s.tick).result = s.result := rfl
@[simp] theorem tick_freeCount : (s.tick).freeCount = s.freeCount := rfl

/-! ### State.enterAcquire -/

@[simp] theorem enterAcquire_cfg : (s.enterAcquire).cfg = s.cfg := rfl
@[simp] theorem enterAcquire_fb : (s.enterAcquire).fb = s.fb := rfl
@[simp] theorem enterAcquire_pb : (s.enterAcquire).pb = s.pb := rfl
@[simp] theorem enterAcquire_phase : (s.enterAcquire).phase = .acquire := rfl
@[simp] theorem enterAcquire_acqCount : (s.enterAcquire).acqCount = 0 := rfl
@[simp] theorem enterAcquire_byteIdx : (s.enterAcquire).byteIdx = s.byteIdx := rfl
@[simp] theorem enterAcquire_symIdx : (s.enterAcquire).symIdx = s.symIdx := rfl
@[simp] theorem enterAcquire_txBusy : (s.enterAcquire).txBusy = s.txBusy := rfl
@[simp] theorem enterAcquire_idleCnt : (s.enterAcquire).idleCnt = s.idleCnt := rfl
@[simp] theorem enterAcquire_halted : (s.enterAcquire).halted = s.halted := rfl
@[simp] theorem enterAcquire_faultCause : (s.enterAcquire).faultCause = s.faultCause := rfl
@[simp] theorem enterAcquire_faultInfo : (s.enterAcquire).faultInfo = s.faultInfo := rfl
@[simp] theorem enterAcquire_bitOrderQ : (s.enterAcquire).bitOrderQ = s.bitOrderQ := rfl
@[simp] theorem enterAcquire_dout : (s.enterAcquire).dout = s.dout := rfl
@[simp] theorem enterAcquire_half : (s.enterAcquire).half = s.half := rfl
@[simp] theorem enterAcquire_ticksLeft : (s.enterAcquire).ticksLeft = s.ticksLeft := rfl
@[simp] theorem enterAcquire_inReset : (s.enterAcquire).inReset = s.inReset := rfl
@[simp] theorem enterAcquire_log : (s.enterAcquire).log = s.log := rfl
@[simp] theorem enterAcquire_trace : (s.enterAcquire).trace = s.trace := rfl
@[simp] theorem enterAcquire_txMark : (s.enterAcquire).txMark = s.txMark := rfl
@[simp] theorem enterAcquire_inputs : (s.enterAcquire).inputs = s.inputs := rfl
@[simp] theorem enterAcquire_call : (s.enterAcquire).call = s.call := rfl
@[simp] theorem enterAcquire_result : (s.enterAcquire).result = s.result := rfl
@[simp] theorem enterAcquire_freeCount : (s.enterAcquire).freeCount = s.freeCount := rfl

/-! ### State.enterEncode -/

@[simp] theorem enterEncode_cfg : (s.enterEncode).cfg = s.cfg := rfl
@[simp] theorem enterEncode_fb : (s.enterEncode).fb = s.fb := rfl
@[simp] theorem enterEncode_pb : (s.enterEncode).pb = s.pb := rfl
@[simp] theorem enterEncode_phase : (s.enterEncode).phase = .encode := rfl
@[simp] theorem enterEncode_acqCount : (s.enterEncode).acqCount = s.acqCount := rfl
@[simp] theorem enterEncode_byteIdx : (s.enterEncode).byteIdx = 0 := rfl
@[simp] theorem enterEncode_symIdx : (s.enterEncode).symIdx = s.symIdx := rfl
@[simp] theorem enterEncode_txBusy : (s.enterEncode).txBusy = s.txBusy := rfl
@[simp] theorem enterEncode_idleCnt : (s.enterEncode).idleCnt = s.idleCnt := rfl
@[simp] theorem enterEncode_halted : (s.enterEncode).halted = s.halted := rfl
@[simp] theorem enterEncode_faultCause : (s.enterEncode).faultCause = s.faultCause := rfl
@[simp] theorem enterEncode_faultInfo : (s.enterEncode).faultInfo = s.faultInfo := rfl
@[simp] theorem enterEncode_bitOrderQ : (s.enterEncode).bitOrderQ = s.bitOrderQ := rfl
@[simp] theorem enterEncode_dout : (s.enterEncode).dout = s.dout := rfl
@[simp] theorem enterEncode_half : (s.enterEncode).half = s.half := rfl
@[simp] theorem enterEncode_ticksLeft : (s.enterEncode).ticksLeft = s.ticksLeft := rfl
@[simp] theorem enterEncode_inReset : (s.enterEncode).inReset = s.inReset := rfl
@[simp] theorem enterEncode_log : (s.enterEncode).log = s.log := rfl
@[simp] theorem enterEncode_trace : (s.enterEncode).trace = s.trace := rfl
@[simp] theorem enterEncode_txMark : (s.enterEncode).txMark = s.txMark := rfl
@[simp] theorem enterEncode_inputs : (s.enterEncode).inputs = s.inputs := rfl
@[simp] theorem enterEncode_call : (s.enterEncode).call = s.call := rfl
@[simp] theorem enterEncode_result : (s.enterEncode).result = s.result := rfl
@[simp] theorem enterEncode_freeCount : (s.enterEncode).freeCount = s.freeCount := rfl

/-! ### State.enterIdle -/

@[simp] theorem enterIdle_cfg : (s.enterIdle).cfg = s.cfg := rfl
@[simp] theorem enterIdle_fb : (s.enterIdle).fb = s.fb := rfl
@[simp] theorem enterIdle_pb : (s.enterIdle).pb = s.pb := rfl
@[simp] theorem enterIdle_phase : (s.enterIdle).phase = .idle := rfl
@[simp] theorem enterIdle_acqCount : (s.enterIdle).acqCount = s.acqCount := rfl
@[simp] theorem enterIdle_byteIdx : (s.enterIdle).byteIdx = s.byteIdx := rfl
@[simp] theorem enterIdle_symIdx : (s.enterIdle).symIdx = s.symIdx := rfl
@[simp] theorem enterIdle_txBusy : (s.enterIdle).txBusy = s.txBusy := rfl
@[simp] theorem enterIdle_idleCnt : (s.enterIdle).idleCnt = s.cfg.idleGapTicks := rfl
@[simp] theorem enterIdle_halted : (s.enterIdle).halted = s.halted := rfl
@[simp] theorem enterIdle_faultCause : (s.enterIdle).faultCause = s.faultCause := rfl
@[simp] theorem enterIdle_faultInfo : (s.enterIdle).faultInfo = s.faultInfo := rfl
@[simp] theorem enterIdle_bitOrderQ : (s.enterIdle).bitOrderQ = s.bitOrderQ := rfl
@[simp] theorem enterIdle_dout : (s.enterIdle).dout = s.dout := rfl
@[simp] theorem enterIdle_half : (s.enterIdle).half = s.half := rfl
@[simp] theorem enterIdle_ticksLeft : (s.enterIdle).ticksLeft = s.ticksLeft := rfl
@[simp] theorem enterIdle_inReset : (s.enterIdle).inReset = s.inReset := rfl
@[simp] theorem enterIdle_log : (s.enterIdle).log = s.log := rfl
@[simp] theorem enterIdle_trace : (s.enterIdle).trace = s.trace := rfl
@[simp] theorem enterIdle_txMark : (s.enterIdle).txMark = s.txMark := rfl
@[simp] theorem enterIdle_inputs : (s.enterIdle).inputs = s.inputs := rfl
@[simp] theorem enterIdle_call : (s.enterIdle).call = s.call := rfl
@[simp] theorem enterIdle_result : (s.enterIdle).result = s.result := rfl
@[simp] theorem enterIdle_freeCount : (s.enterIdle).freeCount = s.freeCount := rfl

/-! ### State.raiseFault -/

@[simp] theorem raiseFault_cfg (c : Cause) : (s.raiseFault c).cfg = s.cfg := rfl
@[simp] theorem raiseFault_fb (c : Cause) : (s.raiseFault c).fb = s.fb := rfl
@[simp] theorem raiseFault_pb (c : Cause) : (s.raiseFault c).pb = s.pb := rfl
@[simp] theorem raiseFault_phase (c : Cause) : (s.raiseFault c).phase = .halted := rfl
@[simp] theorem raiseFault_acqCount (c : Cause) : (s.raiseFault c).acqCount = s.acqCount := rfl
@[simp] theorem raiseFault_byteIdx (c : Cause) : (s.raiseFault c).byteIdx = s.byteIdx := rfl
@[simp] theorem raiseFault_symIdx (c : Cause) : (s.raiseFault c).symIdx = s.symIdx := rfl
@[simp] theorem raiseFault_txBusy (c : Cause) : (s.raiseFault c).txBusy = false := rfl
@[simp] theorem raiseFault_idleCnt (c : Cause) : (s.raiseFault c).idleCnt = s.idleCnt := rfl
@[simp] theorem raiseFault_halted (c : Cause) : (s.raiseFault c).halted = true := rfl
@[simp] theorem raiseFault_faultCause (c : Cause) : (s.raiseFault c).faultCause = c := rfl
@[simp] theorem raiseFault_faultInfo (c : Cause) :
    (s.raiseFault c).faultInfo = if c = .source then s.acqCount else 0 := rfl
@[simp] theorem raiseFault_bitOrderQ (c : Cause) : (s.raiseFault c).bitOrderQ = s.bitOrderQ := rfl
@[simp] theorem raiseFault_dout (c : Cause) : (s.raiseFault c).dout = .low := rfl
@[simp] theorem raiseFault_half (c : Cause) : (s.raiseFault c).half = s.half := rfl
@[simp] theorem raiseFault_ticksLeft (c : Cause) : (s.raiseFault c).ticksLeft = s.ticksLeft := rfl
@[simp] theorem raiseFault_inReset (c : Cause) : (s.raiseFault c).inReset = s.inReset := rfl
@[simp] theorem raiseFault_log (c : Cause) : (s.raiseFault c).log = s.log := rfl
@[simp] theorem raiseFault_trace (c : Cause) : (s.raiseFault c).trace = s.trace := rfl
@[simp] theorem raiseFault_txMark (c : Cause) : (s.raiseFault c).txMark = s.txMark := rfl
@[simp] theorem raiseFault_inputs (c : Cause) : (s.raiseFault c).inputs = s.inputs := rfl
@[simp] theorem raiseFault_call (c : Cause) : (s.raiseFault c).call = s.call := rfl
@[simp] theorem raiseFault_result (c : Cause) : (s.raiseFault c).result = s.result := rfl
@[simp] theorem raiseFault_freeCount (c : Cause) : (s.raiseFault c).freeCount = s.freeCount := rfl

/-! ### State.failAcquire -/

@[simp] theorem failAcquire_cfg (k : Nat) : (s.failAcquire k).cfg = s.cfg := rfl
@[simp] theorem failAcquire_fb (k : Nat) : (s.failAcquire k).fb = freeFrame s.cfg s.freeCount := rfl
@[simp] theorem failAcquire_pb (k : Nat) : (s.failAcquire k).pb = s.pb := rfl
@[simp] theorem failAcquire_phase (k : Nat) : (s.failAcquire k).phase = .halted := rfl
@[simp] theorem failAcquire_acqCount (k : Nat) : (s.failAcquire k).acqCount = k := rfl
@[simp] theorem failAcquire_byteIdx (k : Nat) : (s.failAcquire k).byteIdx = s.byteIdx := rfl
@[simp] theorem failAcquire_symIdx (k : Nat) : (s.failAcquire k).symIdx = s.symIdx := rfl
@[simp] theorem failAcquire_txBusy (k : Nat) : (s.failAcquire k).txBusy = false := rfl
@[simp] theorem failAcquire_idleCnt (k : Nat) : (s.failAcquire k).idleCnt = s.idleCnt := rfl
@[simp] theorem failAcquire_halted (k : Nat) : (s.failAcquire k).halted = true := rfl
@[simp] theorem failAcquire_faultCause (k : Nat) : (s.failAcquire k).faultCause = .source := rfl
@[simp] theorem failAcquire_faultInfo (k : Nat) : (s.failAcquire k).faultInfo = k := rfl
@[simp] theorem failAcquire_bitOrderQ (k : Nat) : (s.failAcquire k).bitOrderQ = s.bitOrderQ := rfl
@[simp] theorem failAcquire_dout (k : Nat) : (s.failAcquire k).dout = .low := rfl
@[simp] theorem failAcquire_half (k : Nat) : (s.failAcquire k).half = s.half := rfl
@[simp] theorem failAcquire_ticksLeft (k : Nat) : (s.failAcquire k).ticksLeft = s.ticksLeft := rfl
@[simp] theorem failAcquire_inReset (k : Nat) : (s.failAcquire k).inReset = s.inReset := rfl
@[simp] theorem failAcquire_log (k : Nat) : (s.failAcquire k).log = s.log := rfl
@[simp] theorem failAcquire_trace (k : Nat) : (s.failAcquire k).trace = s.trace := rfl
@[simp] theorem failAcquire_txMark (k : Nat) : (s.failAcquire k).txMark = s.txMark := rfl
@[simp] theorem failAcquire_inputs (k : Nat) : (s.failAcquire k).inputs = s.inputs := rfl
@[simp] theorem failAcquire_call (k : Nat) : (s.failAcquire k).call = s.call := rfl
@[simp] theorem failAcquire_result (k : Nat) : (s.failAcquire k).result = s.result := rfl
@[simp] theorem failAcquire_freeCount (k : Nat) : (s.failAcquire k).freeCount = s.freeCount + 1 := rfl

/-! ### State.failTransmission -/

@[simp] theorem failTransmission_cfg : (s.failTransmission).cfg = s.cfg := rfl
@[simp] theorem failTransmission_fb : (s.failTransmission).fb = s.fb := rfl
@[simp] theorem failTransmission_pb : (s.failTransmission).pb = s.pb := rfl
@[simp] theorem failTransmission_phase : (s.failTransmission).phase = .halted := rfl
@[simp] theorem failTransmission_acqCount : (s.failTransmission).acqCount = s.acqCount := rfl
@[simp] theorem failTransmission_byteIdx : (s.failTransmission).byteIdx = s.byteIdx := rfl
@[simp] theorem failTransmission_symIdx : (s.failTransmission).symIdx = s.symIdx := rfl
@[simp] theorem failTransmission_txBusy : (s.failTransmission).txBusy = false := rfl
@[simp] theorem failTransmission_idleCnt : (s.failTransmission).idleCnt = s.idleCnt := rfl
@[simp] theorem failTransmission_halted : (s.failTransmission).halted = true := rfl
@[simp] theorem failTransmission_faultCause : (s.failTransmission).faultCause = .transmit := rfl
@[simp] theorem failTransmission_faultInfo : (s.failTransmission).faultInfo = 0 := rfl
@[simp] theorem failTransmission_bitOrderQ : (s.failTransmission).bitOrderQ = s.bitOrderQ := rfl
@[simp] theorem failTransmission_dout : (s.failTransmission).dout = .low := rfl
@[simp] theorem failTransmission_half : (s.failTransmission).half = s.half := rfl
@[simp] theorem failTransmission_ticksLeft : (s.failTransmission).ticksLeft = s.ticksLeft := rfl
@[simp] theorem failTransmission_inReset : (s.failTransmission).inReset = s.inReset := rfl
@[simp] theorem failTransmission_log : (s.failTransmission).log = s.log := rfl
@[simp] theorem failTransmission_trace :
    (s.failTransmission).trace = s.trace.take s.txMark ++ Config.freeTrace s.freeCount := rfl
@[simp] theorem failTransmission_txMark : (s.failTransmission).txMark = s.txMark := rfl
@[simp] theorem failTransmission_inputs : (s.failTransmission).inputs = s.inputs := rfl
@[simp] theorem failTransmission_call : (s.failTransmission).call = s.call := rfl
@[simp] theorem failTransmission_result : (s.failTransmission).result = s.result := rfl
@[simp] theorem failTransmission_freeCount : (s.failTransmission).freeCount = s.freeCount + 1 := rfl

/-! ### State.takeFrame -/

@[simp] theorem takeFrame_cfg (d : List Byte) : (s.takeFrame d).cfg = s.cfg := rfl
@[simp] theorem takeFrame_fb (d : List Byte) : (s.takeFrame d).fb = Memory.writeSpan s.fb 0 d := rfl
@[simp] theorem takeFrame_pb (d : List Byte) : (s.takeFrame d).pb = s.pb := rfl
@[simp] theorem takeFrame_phase (d : List Byte) : (s.takeFrame d).phase = .encode := rfl
@[simp] theorem takeFrame_acqCount (d : List Byte) : (s.takeFrame d).acqCount = s.cfg.frameLen := rfl
@[simp] theorem takeFrame_byteIdx (d : List Byte) : (s.takeFrame d).byteIdx = 0 := rfl
@[simp] theorem takeFrame_symIdx (d : List Byte) : (s.takeFrame d).symIdx = s.symIdx := rfl
@[simp] theorem takeFrame_txBusy (d : List Byte) : (s.takeFrame d).txBusy = s.txBusy := rfl
@[simp] theorem takeFrame_idleCnt (d : List Byte) : (s.takeFrame d).idleCnt = s.idleCnt := rfl
@[simp] theorem takeFrame_halted (d : List Byte) : (s.takeFrame d).halted = s.halted := rfl
@[simp] theorem takeFrame_faultCause (d : List Byte) : (s.takeFrame d).faultCause = s.faultCause := rfl
@[simp] theorem takeFrame_faultInfo (d : List Byte) : (s.takeFrame d).faultInfo = s.faultInfo := rfl
@[simp] theorem takeFrame_bitOrderQ (d : List Byte) : (s.takeFrame d).bitOrderQ = s.bitOrderQ := rfl
@[simp] theorem takeFrame_dout (d : List Byte) : (s.takeFrame d).dout = s.dout := rfl
@[simp] theorem takeFrame_half (d : List Byte) : (s.takeFrame d).half = s.half := rfl
@[simp] theorem takeFrame_ticksLeft (d : List Byte) : (s.takeFrame d).ticksLeft = s.ticksLeft := rfl
@[simp] theorem takeFrame_inReset (d : List Byte) : (s.takeFrame d).inReset = s.inReset := rfl
@[simp] theorem takeFrame_log (d : List Byte) : (s.takeFrame d).log = s.log := rfl
@[simp] theorem takeFrame_trace (d : List Byte) : (s.takeFrame d).trace = s.trace := rfl
@[simp] theorem takeFrame_txMark (d : List Byte) : (s.takeFrame d).txMark = s.txMark := rfl
@[simp] theorem takeFrame_inputs (d : List Byte) : (s.takeFrame d).inputs = s.inputs := rfl
@[simp] theorem takeFrame_call (d : List Byte) : (s.takeFrame d).call = s.call := rfl
@[simp] theorem takeFrame_result (d : List Byte) : (s.takeFrame d).result = s.result := rfl
@[simp] theorem takeFrame_freeCount (d : List Byte) : (s.takeFrame d).freeCount = s.freeCount := rfl

/-! ### State.takeByte -/

@[simp] theorem takeByte_cfg (b : Byte) : (s.takeByte b).cfg = s.cfg := rfl
@[simp] theorem takeByte_fb (b : Byte) : (s.takeByte b).fb = Memory.write s.fb s.acqCount b := rfl
@[simp] theorem takeByte_pb (b : Byte) : (s.takeByte b).pb = s.pb := rfl
@[simp] theorem takeByte_phase (b : Byte) :
    (s.takeByte b).phase = if s.acqCount + 1 = s.cfg.frameLen then .encode else s.phase := rfl
@[simp] theorem takeByte_acqCount (b : Byte) : (s.takeByte b).acqCount = s.acqCount + 1 := rfl
@[simp] theorem takeByte_byteIdx (b : Byte) :
    (s.takeByte b).byteIdx = if s.acqCount + 1 = s.cfg.frameLen then 0 else s.byteIdx := rfl
@[simp] theorem takeByte_symIdx (b : Byte) : (s.takeByte b).symIdx = s.symIdx := rfl
@[simp] theorem takeByte_txBusy (b : Byte) : (s.takeByte b).txBusy = s.txBusy := rfl
@[simp] theorem takeByte_idleCnt (b : Byte) : (s.takeByte b).idleCnt = s.idleCnt := rfl
@[simp] theorem takeByte_halted (b : Byte) : (s.takeByte b).halted = s.halted := rfl
@[simp] theorem takeByte_faultCause (b : Byte) : (s.takeByte b).faultCause = s.faultCause := rfl
@[simp] theorem takeByte_faultInfo (b : Byte) : (s.takeByte b).faultInfo = s.faultInfo := rfl
@[simp] theorem takeByte_bitOrderQ (b : Byte) : (s.takeByte b).bitOrderQ = s.bitOrderQ := rfl
@[simp] theorem takeByte_dout (b : Byte) : (s.takeByte b).dout = s.dout := rfl
@[simp] theorem takeByte_half (b : Byte) : (s.takeByte b).half = s.half := rfl
@[simp] theorem takeByte_ticksLeft (b : Byte) : (s.takeByte b).ticksLeft = s.ticksLeft := rfl
@[simp] theorem takeByte_inReset (b : Byte) : (s.takeByte b).inReset = s.inReset := rfl
@[simp] theorem takeByte_log (b : Byte) : (s.takeByte b).log = s.log := rfl
@[simp] theorem takeByte_trace (b : Byte) : (s.takeByte b).trace = s.trace := rfl
@[simp] theorem takeByte_txMark (b : Byte) : (s.takeByte b).txMark = s.txMark := rfl
@[simp] theorem takeByte_inputs (b : Byte) : (s.takeByte b).inputs = s.inputs := rfl
@[simp] theorem takeByte_call (b : Byte) : (s.takeByte b).call = s.call := rfl
@[simp] theorem takeByte_result (b : Byte) : (s.takeByte b).result = s.result := rfl
@[simp] theorem takeByte_freeCount (b : Byte) : (s.takeByte b).freeCount = s.freeCount := rfl

/-! ### State.encodeWindow -/

@[simp] theorem encodeWindow_cfg (b : Byte) : (s.encodeWindow b).cfg = s.cfg := rfl
@[simp] theorem encodeWindow_fb (b : Byte) : (s.encodeWindow b).fb = s.fb := rfl
@[simp] theorem encodeWindow_pb (b : Byte) :
    (s.encodeWindow b).pb = Memory.writeSpan s.pb (8 * s.byteIdx) (encodeByte s.cfg s.bitOrderQ b) := rfl
@[simp] theorem encodeWindow_phase (b : Byte) :
    (s.encodeWindow b).phase = if s.byteIdx + 1 = s.cfg.frameLen then .frame else s.phase := rfl
@[simp] theorem encodeWindow_acqCount (b : Byte) : (s.encodeWindow b).acqCount = s.acqCount := rfl
@[simp] theorem encodeWindow_byteIdx (b : Byte) : (s.encodeWindow b).byteIdx = s.byteIdx + 1 := rfl
@[simp] theorem encodeWindow_symIdx (b : Byte) : (s.encodeWindow b).symIdx = s.symIdx := rfl
@[simp] theorem encodeWindow_txBusy (b : Byte) : (s.encodeWindow b).txBusy = s.txBusy := rfl
@[simp] theorem encodeWindow_idleCnt (b : Byte) : (s.encodeWindow b).idleCnt = s.idleCnt := rfl
@[simp] theorem encodeWindow_halted (b : Byte) : (s.encodeWindow b).halted = s.halted := rfl
@[simp] theorem encodeWindow_faultCause (b : Byte) : (s.encodeWindow b).faultCause = s.faultCause := rfl
@[simp] theorem encodeWindow_faultInfo (b : Byte) : (s.encodeWindow b).faultInfo = s.faultInfo := rfl
@[simp] theorem encodeWindow_bitOrderQ (b : Byte) : (s.encodeWindow b).bitOrderQ = s.bitOrderQ := rfl
@[simp] theorem encodeWindow_dout (b : Byte) : (s.encodeWindow b).dout = s.dout := rfl
@[simp] theorem encodeWindow_half (b : Byte) : (s.encodeWindow b).half = s.half := rfl
@[simp] theorem encodeWindow_ticksLeft (b : Byte) : (s.encodeWindow b).ticksLeft = s.ticksLeft := rfl
@[simp] theorem encodeWindow_inReset (b : Byte) : (s.encodeWindow b).inReset = s.inReset := rfl
@[simp] theorem encodeWindow_log (b : Byte) : (s.encodeWindow b).log = s.log := rfl
@[simp] theorem encodeWindow_trace (b : Byte) : (s.encodeWindow b).trace = s.trace := rfl
@[simp] theorem encodeWindow_txMark (b : Byte) : (s.encodeWindow b).txMark = s.txMark := rfl
@[simp] theorem encodeWindow_inputs (b : Byte) : (s.encodeWindow b).inputs = s.inputs := rfl
@[simp] theorem encodeWindow_call (b : Byte) : (s.encodeWindow b).call = s.call := rfl
@[simp] theorem encodeWindow_result (b : Byte) : (s.encodeWindow b).result = s.result := rfl
@[simp] theorem encodeWindow_freeCount (b : Byte) : (s.encodeWindow b).freeCount = s.freeCount := rfl

/-! ### State.closeFrame -/

@[simp] theorem closeFrame_cfg : (s.closeFrame).cfg = s.cfg := rfl
@[simp] theorem closeFrame_fb : (s.closeFrame).fb = s.fb := rfl
@[simp] theorem closeFrame_pb : (s.closeFrame).pb = Memory.write s.pb s.cfg.lastSlot s.cfg.symSR := rfl
@[simp] theorem closeFrame_phase : (s.closeFrame).phase = .transmit := rfl
@[simp] theorem closeFrame_acqCount : (s.closeFrame).acqCount = s.acqCount := rfl
@[simp] theorem closeFrame_byteIdx : (s.closeFrame).byteIdx = s.byteIdx := rfl
@[simp] theorem closeFrame_symIdx : (s.closeFrame).symIdx = s.symIdx := rfl
@[simp] theorem closeFrame_txBusy : (s.closeFrame).txBusy = s.txBusy := rfl
@[simp] theorem closeFrame_idleCnt : (s.closeFrame).idleCnt = s.idleCnt := rfl
@[simp] theorem closeFrame_halted : (s.closeFrame).halted = s.halted := rfl
@[simp] theorem closeFrame_faultCause : (s.closeFrame).faultCause = s.faultCause := rfl
@[simp] theorem closeFrame_faultInfo : (s.closeFrame).faultInfo = s.faultInfo := rfl
@[simp] theorem closeFrame_bitOrderQ : (s.closeFrame).bitOrderQ = s.bitOrderQ := rfl
@[simp] theorem closeFrame_dout : (s.closeFrame).dout = s.dout := rfl
@[simp] theorem closeFrame_half : (s.closeFrame).half = s.half := rfl
@[simp] theorem closeFrame_ticksLeft : (s.closeFrame).ticksLeft = s.ticksLeft := rfl
@[simp] theorem closeFrame_inReset : (s.closeFrame).inReset = s.inReset := rfl
@[simp] theorem closeFrame_log : (s.closeFrame).log = s.log := rfl
@[simp] theorem closeFrame_trace : (s.closeFrame).trace = s.trace := rfl
@[simp] theorem closeFrame_txMark : (s.closeFrame).txMark = s.txMark := rfl
@[simp] theorem closeFrame_inputs : (s.closeFrame).inputs = s.inputs := rfl
@[simp] theorem closeFrame_call : (s.closeFrame).call = s.call := rfl
@[simp] theorem closeFrame_result : (s.closeFrame).result = s.result := rfl
@[simp] theorem closeFrame_freeCount : (s.closeFrame).freeCount = s.freeCount := rfl

/-! ### State.submit -/

@[simp] theorem submit_cfg (buf : List PulseSymbol) : (s.submit buf).cfg = s.cfg := rfl
@[simp] theorem submit_fb (buf : List PulseSymbol) : (s.submit buf).fb = s.fb := rfl
@[simp] theorem submit_pb (buf : List PulseSymbol) : (s.submit buf).pb = s.pb := rfl
@[simp] theorem submit_phase (buf : List PulseSymbol) : (s.submit buf).phase = s.phase := rfl
@[simp] theorem submit_acqCount (buf : List PulseSymbol) : (s.submit buf).acqCount = s.acqCount := rfl
@[simp] theorem submit_byteIdx (buf : List PulseSymbol) : (s.submit buf).byteIdx = s.byteIdx := rfl
@[simp] theorem submit_symIdx (buf : List PulseSymbol) : (s.submit buf).symIdx = 0 := rfl
@[simp] theorem submit_txBusy (buf : List PulseSymbol) : (s.submit buf).txBusy = true := rfl
@[simp] theorem submit_idleCnt (buf : List PulseSymbol) : (s.submit buf).idleCnt = s.idleCnt := rfl
@[simp] theorem submit_halted (buf : List PulseSymbol) : (s.submit buf).halted = s.halted := rfl
@[simp] theorem submit_faultCause (buf : List PulseSymbol) : (s.submit buf).faultCause = s.faultCause := rfl
@[simp] theorem submit_faultInfo (buf : List PulseSymbol) : (s.submit buf).faultInfo = s.faultInfo := rfl
@[simp] theorem submit_bitOrderQ (buf : List PulseSymbol) : (s.submit buf).bitOrderQ = s.bitOrderQ := rfl
@[simp] theorem submit_dout (buf : List PulseSymbol) : (s.submit buf).dout = s.dout := rfl
@[simp] theorem submit_half (buf : List PulseSymbol) : (s.submit buf).half = .first := rfl
@[simp] theorem submit_ticksLeft (buf : List PulseSymbol) : (s.submit buf).ticksLeft = s.firstTicks 0 := rfl
@[simp] theorem submit_inReset (buf : List PulseSymbol) : (s.submit buf).inReset = s.inReset := rfl
@[simp] theorem submit_log (buf : List PulseSymbol) : (s.submit buf).log = s.log ++ [buf] := rfl
@[simp] theorem submit_trace (buf : List PulseSymbol) : (s.submit buf).trace = s.trace := rfl
@[simp] theorem submit_txMark (buf : List PulseSymbol) : (s.submit buf).txMark = s.trace.length := rfl
@[simp] theorem submit_inputs (buf : List PulseSymbol) : (s.submit buf).inputs = s.inputs := rfl
@[simp] theorem submit_call (buf : List PulseSymbol) : (s.submit buf).call = s.call := rfl
@[simp] theorem submit_result (buf : List PulseSymbol) : (s.submit buf).result = s.result := rfl
@[simp] theorem submit_freeCount (buf : List PulseSymbol) : (s.submit buf).freeCount = s.freeCount := rfl

/-! ### State.countDown -/

@[simp] theorem countDown_cfg : (s.countDown).cfg = s.cfg := rfl
@[simp] theorem countDown_fb : (s.countDown).fb = s.fb := rfl
@[simp] theorem countDown_pb : (s.countDown).pb = s.pb := rfl
@[simp] theorem countDown_phase : (s.countDown).phase = s.phase := rfl
@[simp] theorem countDown_acqCount : (s.countDown).acqCount = s.acqCount := rfl
@[simp] theorem countDown_byteIdx : (s.countDown).byteIdx = s.byteIdx := rfl
@[simp] theorem countDown_symIdx : (s.countDown).symIdx = s.symIdx := rfl
@[simp] theorem countDown_txBusy : (s.countDown).txBusy = s.txBusy := rfl
@[simp] theorem countDown_idleCnt : (s.countDown).idleCnt = s.idleCnt - 1 := rfl
@[simp] theorem countDown_halted : (s.countDown).halted = s.halted := rfl
@[simp] theorem countDown_faultCause : (s.countDown).faultCause = s.faultCause := rfl
@[simp] theorem countDown_faultInfo : (s.countDown).faultInfo = s.faultInfo := rfl
@[simp] theorem countDown_bitOrderQ : (s.countDown).bitOrderQ = s.bitOrderQ := rfl
@[simp] theorem countDown_dout : (s.countDown).dout = s.dout := rfl
@[simp] theorem countDown_half : (s.countDown).half = s.half := rfl
@[simp] theorem countDown_ticksLeft : (s.countDown).ticksLeft = s.ticksLeft := rfl
@[simp] theorem countDown_inReset : (s.countDown).inReset = s.inReset := rfl
@[simp] theorem countDown_log : (s.countDown).log = s.log := rfl
@[simp] theorem countDown_trace : (s.countDown).trace = s.trace ++ [s.dout] := rfl
@[simp] theorem countDown_txMark : (s.countDown).txMark = s.txMark := rfl
@[simp] theorem countDown_inputs : (s.countDown).inputs = s.inputs := rfl
@[simp] theorem countDown_call : (s.countDown).call = s.call := rfl
@[simp] theorem countDown_result : (s.countDown).result = s.result := rfl
@[simp] theorem countDown_freeCount : (s.countDown).freeCount = s.freeCount := rfl

/-! ### State.drive -/

@[simp] theorem drive_cfg (l : Level) : (s.drive l).cfg = s.cfg := rfl
@[simp] theorem drive_fb (l : Level) : (s.drive l).fb = s.fb := rfl
@[simp] theorem drive_pb (l : Level) : (s.drive l).pb = s.pb := rfl
@[simp] theorem drive_phase (l : Level) : (s.drive l).phase = s.phase := rfl
@[simp] theorem drive_acqCount (l : Level) : (s.drive l).acqCount = s.acqCount := rfl
@[simp] theorem drive_byteIdx (l : Level) : (s.drive l).byteIdx = s.byteIdx := rfl
@[simp] theorem drive_symIdx (l : Level) : (s.drive l).symIdx = s.symIdx := rfl
@[simp] theorem drive_txBusy (l : Level) : (s.drive l).txBusy = s.txBusy := rfl
@[simp] theorem drive_idleCnt (l : Level) : (s.drive l).idleCnt = s.idleCnt := rfl
@[simp] theorem drive_halted (l : Level) : (s.drive l).halted = s.halted := rfl
@[simp] theorem drive_faultCause (l : Level) : (s.drive l).faultCause = s.faultCause := rfl
@[simp] theorem drive_faultInfo (l : Level) : (s.drive l).faultInfo = s.faultInfo := rfl
@[simp] theorem drive_bitOrderQ (l : Level) : (s.drive l).bitOrderQ = s.bitOrderQ := rfl
@[simp] theorem drive_dout (l : Level) : (s.drive l).dout = l := rfl
@[simp] theorem drive_half (l : Level) : (s.drive l).half = s.half := rfl
@[simp] theorem drive_ticksLeft (l : Level) : (s.drive l).ticksLeft = s.ticksLeft - 1 := rfl
@[simp] theorem drive_inReset (l : Level) : (s.drive l).inReset = s.inReset := rfl
@[simp] theorem drive_log (l : Level) : (s.drive l).log = s.log := rfl
@[simp] theorem drive_trace (l : Level) : (s.drive l).trace = s.trace ++ [l] := rfl
@[simp] theorem drive_txMark (l : Level) : (s.drive l).txMark = s.txMark := rfl
@[simp] theorem drive_inputs (l : Level) : (s.drive l).inputs = s.inputs := rfl
@[simp] theorem drive_call (l : Level) : (s.drive l).call = s.call := rfl
@[simp] theorem drive_result (l : Level) : (s.drive l).result = s.result := rfl
@[simp] theorem drive_freeCount (l : Level) : (s.drive l).freeCount = s.freeCount := rfl

/-! ### DOUT on entering a half -/

@[simp] theorem doutEntering_low (d : Level) : doutEntering .low d = .low := rfl
@[simp] theorem doutEntering_high (d : Level) : doutEntering .high d = d := rfl

/-- DOUT is High on entering a half only if the half is High and DOUT was. -/
theorem doutEntering_eq_high {l d : Level} : doutEntering l d = .high ↔ l = .high ∧ d = .high := by
  cases l <;> simp

/-- DOUT is High on entering a symbol only if the symbol is there, starts High, and DOUT was. -/
theorem doutAtSymbol_eq_high {s : State} {j : Nat} :
    s.doutAtSymbol j = .high ↔ (∃ p, s.readPb j = some p ∧ p.l0 = .high) ∧ s.dout = .high := by
  unfold State.doutAtSymbol
  cases s.readPb j <;> simp [doutEntering_eq_high]

/-! ### State.toSecondHalf -/

@[simp] theorem toSecondHalf_cfg (p : PulseSymbol) : (s.toSecondHalf p).cfg = s.cfg := rfl
@[simp] theorem toSecondHalf_fb (p : PulseSymbol) : (s.toSecondHalf p).fb = s.fb := rfl
@[simp] theorem toSecondHalf_pb (p : PulseSymbol) : (s.toSecondHalf p).pb = s.pb := rfl
@[simp] theorem toSecondHalf_phase (p : PulseSymbol) : (s.toSecondHalf p).phase = s.phase := rfl
@[simp] theorem toSecondHalf_acqCount (p : PulseSymbol) : (s.toSecondHalf p).acqCount = s.acqCount := rfl
@[simp] theorem toSecondHalf_byteIdx (p : PulseSymbol) : (s.toSecondHalf p).byteIdx = s.byteIdx := rfl
@[simp] theorem toSecondHalf_symIdx (p : PulseSymbol) : (s.toSecondHalf p).symIdx = s.symIdx := rfl
@[simp] theorem toSecondHalf_txBusy (p : PulseSymbol) : (s.toSecondHalf p).txBusy = s.txBusy := rfl
@[simp] theorem toSecondHalf_idleCnt (p : PulseSymbol) : (s.toSecondHalf p).idleCnt = s.idleCnt := rfl
@[simp] theorem toSecondHalf_halted (p : PulseSymbol) : (s.toSecondHalf p).halted = s.halted := rfl
@[simp] theorem toSecondHalf_faultCause (p : PulseSymbol) : (s.toSecondHalf p).faultCause = s.faultCause := rfl
@[simp] theorem toSecondHalf_faultInfo (p : PulseSymbol) : (s.toSecondHalf p).faultInfo = s.faultInfo := rfl
@[simp] theorem toSecondHalf_bitOrderQ (p : PulseSymbol) : (s.toSecondHalf p).bitOrderQ = s.bitOrderQ := rfl
@[simp] theorem toSecondHalf_dout (p : PulseSymbol) :
    (s.toSecondHalf p).dout = doutEntering p.l1 s.dout := rfl
@[simp] theorem toSecondHalf_half (p : PulseSymbol) : (s.toSecondHalf p).half = .second := rfl
@[simp] theorem toSecondHalf_ticksLeft (p : PulseSymbol) : (s.toSecondHalf p).ticksLeft = p.d1 := rfl
@[simp] theorem toSecondHalf_inReset (p : PulseSymbol) : (s.toSecondHalf p).inReset = s.inReset := rfl
@[simp] theorem toSecondHalf_log (p : PulseSymbol) : (s.toSecondHalf p).log = s.log := rfl
@[simp] theorem toSecondHalf_trace (p : PulseSymbol) : (s.toSecondHalf p).trace = s.trace := rfl
@[simp] theorem toSecondHalf_txMark (p : PulseSymbol) : (s.toSecondHalf p).txMark = s.txMark := rfl
@[simp] theorem toSecondHalf_inputs (p : PulseSymbol) : (s.toSecondHalf p).inputs = s.inputs := rfl
@[simp] theorem toSecondHalf_call (p : PulseSymbol) : (s.toSecondHalf p).call = s.call := rfl
@[simp] theorem toSecondHalf_result (p : PulseSymbol) : (s.toSecondHalf p).result = s.result := rfl
@[simp] theorem toSecondHalf_freeCount (p : PulseSymbol) : (s.toSecondHalf p).freeCount = s.freeCount := rfl

/-! ### State.toNextSymbol -/

@[simp] theorem toNextSymbol_cfg : (s.toNextSymbol).cfg = s.cfg := rfl
@[simp] theorem toNextSymbol_fb : (s.toNextSymbol).fb = s.fb := rfl
@[simp] theorem toNextSymbol_pb : (s.toNextSymbol).pb = s.pb := rfl
@[simp] theorem toNextSymbol_phase : (s.toNextSymbol).phase = s.phase := rfl
@[simp] theorem toNextSymbol_acqCount : (s.toNextSymbol).acqCount = s.acqCount := rfl
@[simp] theorem toNextSymbol_byteIdx : (s.toNextSymbol).byteIdx = s.byteIdx := rfl
@[simp] theorem toNextSymbol_symIdx : (s.toNextSymbol).symIdx = s.symIdx + 1 := rfl
@[simp] theorem toNextSymbol_txBusy : (s.toNextSymbol).txBusy = s.txBusy := rfl
@[simp] theorem toNextSymbol_idleCnt : (s.toNextSymbol).idleCnt = s.idleCnt := rfl
@[simp] theorem toNextSymbol_halted : (s.toNextSymbol).halted = s.halted := rfl
@[simp] theorem toNextSymbol_faultCause : (s.toNextSymbol).faultCause = s.faultCause := rfl
@[simp] theorem toNextSymbol_faultInfo : (s.toNextSymbol).faultInfo = s.faultInfo := rfl
@[simp] theorem toNextSymbol_bitOrderQ : (s.toNextSymbol).bitOrderQ = s.bitOrderQ := rfl
@[simp] theorem toNextSymbol_dout : (s.toNextSymbol).dout = s.doutAtSymbol (s.symIdx + 1) := rfl
@[simp] theorem toNextSymbol_half : (s.toNextSymbol).half = .first := rfl
@[simp] theorem toNextSymbol_ticksLeft : (s.toNextSymbol).ticksLeft = s.firstTicks (s.symIdx + 1) := rfl
@[simp] theorem toNextSymbol_inReset : (s.toNextSymbol).inReset = s.inReset := rfl
@[simp] theorem toNextSymbol_log : (s.toNextSymbol).log = s.log := rfl
@[simp] theorem toNextSymbol_trace : (s.toNextSymbol).trace = s.trace := rfl
@[simp] theorem toNextSymbol_txMark : (s.toNextSymbol).txMark = s.txMark := rfl
@[simp] theorem toNextSymbol_inputs : (s.toNextSymbol).inputs = s.inputs := rfl
@[simp] theorem toNextSymbol_call : (s.toNextSymbol).call = s.call := rfl
@[simp] theorem toNextSymbol_result : (s.toNextSymbol).result = s.result := rfl
@[simp] theorem toNextSymbol_freeCount : (s.toNextSymbol).freeCount = s.freeCount := rfl

/-! ### State.endTransmission -/

@[simp] theorem endTransmission_cfg : (s.endTransmission).cfg = s.cfg := rfl
@[simp] theorem endTransmission_fb : (s.endTransmission).fb = s.fb := rfl
@[simp] theorem endTransmission_pb : (s.endTransmission).pb = s.pb := rfl
@[simp] theorem endTransmission_phase : (s.endTransmission).phase = s.phase := rfl
@[simp] theorem endTransmission_acqCount : (s.endTransmission).acqCount = s.acqCount := rfl
@[simp] theorem endTransmission_byteIdx : (s.endTransmission).byteIdx = s.byteIdx := rfl
@[simp] theorem endTransmission_symIdx : (s.endTransmission).symIdx = s.symIdx := rfl
@[simp] theorem endTransmission_txBusy : (s.endTransmission).txBusy = false := rfl
@[simp] theorem endTransmission_idleCnt : (s.endTransmission).idleCnt = s.idleCnt := rfl
@[simp] theorem endTransmission_halted : (s.endTransmission).halted = s.halted := rfl
@[simp] theorem endTransmission_faultCause : (s.endTransmission).faultCause = s.faultCause := rfl
@[simp] theorem endTransmission_faultInfo : (s.endTransmission).faultInfo = s.faultInfo := rfl
@[simp] theorem endTransmission_bitOrderQ : (s.endTransmission).bitOrderQ = s.bitOrderQ := rfl
@[simp] theorem endTransmission_dout : (s.endTransmission).dout = .low := rfl
@[simp] theorem endTransmission_half : (s.endTransmission).half = s.half := rfl
@[simp] theorem endTransmission_ticksLeft : (s.endTransmission).ticksLeft = s.ticksLeft := rfl
@[simp] theorem endTransmission_inReset : (s.endTransmission).inReset = s.inReset := rfl
@[simp] theorem endTransmission_log : (s.endTransmission).log = s.log := rfl
@[simp] theorem endTransmission_trace : (s.endTransmission).trace = s.trace := rfl
@[simp] theorem endTransmission_txMark : (s.endTransmission).txMark = s.txMark := rfl
@[simp] theorem endTransmission_inputs : (s.endTransmission).inputs = s.inputs := rfl
@[simp] theorem endTransmission_call : (s.endTransmission).call = s.call := rfl
@[simp] theorem endTransmission_result : (s.endTransmission).result = s.result := rfl
@[simp] theorem endTransmission_freeCount : (s.endTransmission).freeCount = s.freeCount := rfl

/-! ### State.deliver -/

@[simp] theorem deliver_cfg (r : CallResult) : (s.deliver r).cfg = s.cfg := rfl
@[simp] theorem deliver_fb (r : CallResult) : (s.deliver r).fb = s.fb := rfl
@[simp] theorem deliver_pb (r : CallResult) : (s.deliver r).pb = s.pb := rfl
@[simp] theorem deliver_phase (r : CallResult) : (s.deliver r).phase = s.phase := rfl
@[simp] theorem deliver_acqCount (r : CallResult) : (s.deliver r).acqCount = s.acqCount := rfl
@[simp] theorem deliver_byteIdx (r : CallResult) : (s.deliver r).byteIdx = s.byteIdx := rfl
@[simp] theorem deliver_symIdx (r : CallResult) : (s.deliver r).symIdx = s.symIdx := rfl
@[simp] theorem deliver_txBusy (r : CallResult) : (s.deliver r).txBusy = s.txBusy := rfl
@[simp] theorem deliver_idleCnt (r : CallResult) : (s.deliver r).idleCnt = s.idleCnt := rfl
@[simp] theorem deliver_halted (r : CallResult) : (s.deliver r).halted = s.halted := rfl
@[simp] theorem deliver_faultCause (r : CallResult) : (s.deliver r).faultCause = s.faultCause := rfl
@[simp] theorem deliver_faultInfo (r : CallResult) : (s.deliver r).faultInfo = s.faultInfo := rfl
@[simp] theorem deliver_bitOrderQ (r : CallResult) : (s.deliver r).bitOrderQ = s.bitOrderQ := rfl
@[simp] theorem deliver_dout (r : CallResult) : (s.deliver r).dout = s.dout := rfl
@[simp] theorem deliver_half (r : CallResult) : (s.deliver r).half = s.half := rfl
@[simp] theorem deliver_ticksLeft (r : CallResult) : (s.deliver r).ticksLeft = s.ticksLeft := rfl
@[simp] theorem deliver_inReset (r : CallResult) : (s.deliver r).inReset = s.inReset := rfl
@[simp] theorem deliver_log (r : CallResult) : (s.deliver r).log = s.log := rfl
@[simp] theorem deliver_trace (r : CallResult) : (s.deliver r).trace = s.trace := rfl
@[simp] theorem deliver_txMark (r : CallResult) : (s.deliver r).txMark = s.txMark := rfl
@[simp] theorem deliver_inputs (r : CallResult) : (s.deliver r).inputs = s.inputs := rfl
@[simp] theorem deliver_call (r : CallResult) : (s.deliver r).call = s.call := rfl
@[simp] theorem deliver_result (r : CallResult) : (s.deliver r).result = r := rfl
@[simp] theorem deliver_freeCount (r : CallResult) : (s.deliver r).freeCount = s.freeCount := rfl

/-! ### State.holdReset -/

@[simp] theorem holdReset_cfg : (s.holdReset).cfg = s.cfg := rfl
@[simp] theorem holdReset_fb : (s.holdReset).fb = [] := rfl
@[simp] theorem holdReset_pb : (s.holdReset).pb = [] := rfl
@[simp] theorem holdReset_phase : (s.holdReset).phase = .acquire := rfl
@[simp] theorem holdReset_acqCount : (s.holdReset).acqCount = 0 := rfl
@[simp] theorem holdReset_byteIdx : (s.holdReset).byteIdx = 0 := rfl
@[simp] theorem holdReset_symIdx : (s.holdReset).symIdx = 0 := rfl
@[simp] theorem holdReset_txBusy : (s.holdReset).txBusy = false := rfl
@[simp] theorem holdReset_idleCnt : (s.holdReset).idleCnt = 0 := rfl
@[simp] theorem holdReset_halted : (s.holdReset).halted = false := rfl
@[simp] theorem holdReset_faultCause : (s.holdReset).faultCause = .none := rfl
@[simp] theorem holdReset_faultInfo : (s.holdReset).faultInfo = 0 := rfl
@[simp] theorem holdReset_bitOrderQ : (s.holdReset).bitOrderQ = s.bitOrderQ := rfl
@[simp] theorem holdReset_dout : (s.holdReset).dout = .low := rfl
@[simp] theorem holdReset_half : (s.holdReset).half = .first := rfl
@[simp] theorem holdReset_ticksLeft : (s.holdReset).ticksLeft = 0 := rfl
@[simp] theorem holdReset_inReset : (s.holdReset).inReset = true := rfl
@[simp] theorem holdReset_log : (s.holdReset).log = [] := rfl
@[simp] theorem holdReset_trace : (s.holdReset).trace = [] := rfl
@[simp] theorem holdReset_txMark : (s.holdReset).txMark = 0 := rfl
@[simp] theorem holdReset_inputs : (s.holdReset).inputs = s.inputs := rfl
@[simp] theorem holdReset_call : (s.holdReset).call = s.call := rfl
@[simp] theorem holdReset_result : (s.holdReset).result = s.result := rfl
@[simp] theorem holdReset_freeCount : (s.holdReset).freeCount = s.freeCount := rfl

/-! ### Release of reset, and completion -/

@[simp] theorem releaseReset_cfg (ok : Bool) (o : BitOrder) :
    (s.releaseReset ok o).cfg = s.cfg := by cases ok <;> rfl
@[simp] theorem releaseReset_fb (ok : Bool) (o : BitOrder) :
    (s.releaseReset ok o).fb = [] := by cases ok <;> rfl
@[simp] theorem releaseReset_pb (ok : Bool) (o : BitOrder) :
    (s.releaseReset ok o).pb = [] := by cases ok <;> rfl
@[simp] theorem releaseReset_phase (ok : Bool) (o : BitOrder) :
    (s.releaseReset ok o).phase = if ok then .acquire else .halted := by cases ok <;> rfl
@[simp] theorem releaseReset_acqCount (ok : Bool) (o : BitOrder) :
    (s.releaseReset ok o).acqCount = 0 := by cases ok <;> rfl
@[simp] theorem releaseReset_byteIdx (ok : Bool) (o : BitOrder) :
    (s.releaseReset ok o).byteIdx = 0 := by cases ok <;> rfl
@[simp] theorem releaseReset_symIdx (ok : Bool) (o : BitOrder) :
    (s.releaseReset ok o).symIdx = 0 := by cases ok <;> rfl
@[simp] theorem releaseReset_txBusy (ok : Bool) (o : BitOrder) :
    (s.releaseReset ok o).txBusy = false := by cases ok <;> rfl
@[simp] theorem releaseReset_idleCnt (ok : Bool) (o : BitOrder) :
    (s.releaseReset ok o).idleCnt = 0 := by cases ok <;> rfl
@[simp] theorem releaseReset_halted (ok : Bool) (o : BitOrder) :
    (s.releaseReset ok o).halted = !ok := by cases ok <;> rfl
@[simp] theorem releaseReset_faultCause (ok : Bool) (o : BitOrder) :
    (s.releaseReset ok o).faultCause = if ok then .none else .config := by cases ok <;> rfl
@[simp] theorem releaseReset_faultInfo (ok : Bool) (o : BitOrder) :
    (s.releaseReset ok o).faultInfo = 0 := by cases ok <;> rfl
@[simp] theorem releaseReset_bitOrderQ (ok : Bool) (o : BitOrder) :
    (s.releaseReset ok o).bitOrderQ = o := by cases ok <;> rfl
@[simp] theorem releaseReset_dout (ok : Bool) (o : BitOrder) :
    (s.releaseReset ok o).dout = .low := by cases ok <;> rfl
@[simp] theorem releaseReset_half (ok : Bool) (o : BitOrder) :
    (s.releaseReset ok o).half = .first := by cases ok <;> rfl
@[simp] theorem releaseReset_ticksLeft (ok : Bool) (o : BitOrder) :
    (s.releaseReset ok o).ticksLeft = 0 := by cases ok <;> rfl
@[simp] theorem releaseReset_inReset (ok : Bool) (o : BitOrder) :
    (s.releaseReset ok o).inReset = false := by cases ok <;> rfl
@[simp] theorem releaseReset_log (ok : Bool) (o : BitOrder) :
    (s.releaseReset ok o).log = [] := by cases ok <;> rfl
@[simp] theorem releaseReset_trace (ok : Bool) (o : BitOrder) :
    (s.releaseReset ok o).trace = [] := by cases ok <;> rfl
@[simp] theorem releaseReset_txMark (ok : Bool) (o : BitOrder) :
    (s.releaseReset ok o).txMark = 0 := by cases ok <;> rfl
@[simp] theorem releaseReset_inputs (ok : Bool) (o : BitOrder) :
    (s.releaseReset ok o).inputs = s.inputs := by cases ok <;> rfl
@[simp] theorem releaseReset_call (ok : Bool) (o : BitOrder) :
    (s.releaseReset ok o).call = s.call := by cases ok <;> rfl
@[simp] theorem releaseReset_result (ok : Bool) (o : BitOrder) :
    (s.releaseReset ok o).result = s.result := by cases ok <;> rfl
@[simp] theorem releaseReset_freeCount (ok : Bool) (o : BitOrder) :
    (s.releaseReset ok o).freeCount = s.freeCount := by cases ok <;> rfl

@[simp] theorem resumeAfterCompletion_cfg : s.resumeAfterCompletion.cfg = s.cfg := by
  unfold State.resumeAfterCompletion; split <;> rfl
@[simp] theorem resumeAfterCompletion_fb : s.resumeAfterCompletion.fb = s.fb := by
  unfold State.resumeAfterCompletion; split <;> rfl
@[simp] theorem resumeAfterCompletion_pb : s.resumeAfterCompletion.pb = s.pb := by
  unfold State.resumeAfterCompletion; split <;> rfl
@[simp] theorem resumeAfterCompletion_phase :
    s.resumeAfterCompletion.phase = if s.phase = .transmit then .idle else s.phase := by
  unfold State.resumeAfterCompletion; split <;> simp_all
@[simp] theorem resumeAfterCompletion_acqCount : s.resumeAfterCompletion.acqCount = s.acqCount := by
  unfold State.resumeAfterCompletion; split <;> rfl
@[simp] theorem resumeAfterCompletion_byteIdx : s.resumeAfterCompletion.byteIdx = s.byteIdx := by
  unfold State.resumeAfterCompletion; split <;> rfl
@[simp] theorem resumeAfterCompletion_symIdx : s.resumeAfterCompletion.symIdx = s.symIdx := by
  unfold State.resumeAfterCompletion; split <;> rfl
@[simp] theorem resumeAfterCompletion_txBusy : s.resumeAfterCompletion.txBusy = s.txBusy := by
  unfold State.resumeAfterCompletion; split <;> rfl
@[simp] theorem resumeAfterCompletion_idleCnt :
    s.resumeAfterCompletion.idleCnt = if s.phase = .transmit then s.cfg.idleGapTicks else s.idleCnt := by
  unfold State.resumeAfterCompletion; split <;> simp_all
@[simp] theorem resumeAfterCompletion_halted : s.resumeAfterCompletion.halted = s.halted := by
  unfold State.resumeAfterCompletion; split <;> rfl
@[simp] theorem resumeAfterCompletion_faultCause : s.resumeAfterCompletion.faultCause = s.faultCause := by
  unfold State.resumeAfterCompletion; split <;> rfl
@[simp] theorem resumeAfterCompletion_faultInfo : s.resumeAfterCompletion.faultInfo = s.faultInfo := by
  unfold State.resumeAfterCompletion; split <;> rfl
@[simp] theorem resumeAfterCompletion_bitOrderQ : s.resumeAfterCompletion.bitOrderQ = s.bitOrderQ := by
  unfold State.resumeAfterCompletion; split <;> rfl
@[simp] theorem resumeAfterCompletion_dout : s.resumeAfterCompletion.dout = s.dout := by
  unfold State.resumeAfterCompletion; split <;> rfl
@[simp] theorem resumeAfterCompletion_half : s.resumeAfterCompletion.half = s.half := by
  unfold State.resumeAfterCompletion; split <;> rfl
@[simp] theorem resumeAfterCompletion_ticksLeft : s.resumeAfterCompletion.ticksLeft = s.ticksLeft := by
  unfold State.resumeAfterCompletion; split <;> rfl
@[simp] theorem resumeAfterCompletion_inReset : s.resumeAfterCompletion.inReset = s.inReset := by
  unfold State.resumeAfterCompletion; split <;> rfl
@[simp] theorem resumeAfterCompletion_log : s.resumeAfterCompletion.log = s.log := by
  unfold State.resumeAfterCompletion; split <;> rfl
@[simp] theorem resumeAfterCompletion_trace : s.resumeAfterCompletion.trace = s.trace := by
  unfold State.resumeAfterCompletion; split <;> rfl
@[simp] theorem resumeAfterCompletion_txMark : s.resumeAfterCompletion.txMark = s.txMark := by
  unfold State.resumeAfterCompletion; split <;> rfl
@[simp] theorem resumeAfterCompletion_inputs : s.resumeAfterCompletion.inputs = s.inputs := by
  unfold State.resumeAfterCompletion; split <;> rfl
@[simp] theorem resumeAfterCompletion_call : s.resumeAfterCompletion.call = s.call := by
  unfold State.resumeAfterCompletion; split <;> rfl
@[simp] theorem resumeAfterCompletion_result : s.resumeAfterCompletion.result = s.result := by
  unfold State.resumeAfterCompletion; split <;> rfl
@[simp] theorem resumeAfterCompletion_freeCount : s.resumeAfterCompletion.freeCount = s.freeCount := by
  unfold State.resumeAfterCompletion; split <;> rfl

end Sys2Proof.Machine
end

