-- ==== Sys2Proof/Laws/Exec.lean ====
section
/-! SUPPORT. Said once per operation: everything its meaning can do when it answers a next state. Later proofs cite
these and do not unfold the meanings. -/

namespace Sys2Proof.Machine

theorem enabled_iff (s : State) (p : Phase) :
    s.enabled p = true ↔ s.phase = p ∧ s.halted = false ∧ s.txBusy = false := by
  simp [State.enabled, and_assoc]

theorem execAcquire_cases {s t : State} (h : execAcquire s = .next t) :
    (s.phase = .acquire ∧ s.halted = false ∧ s.txBusy = false) ∧
    ((s.cur.srcFail = true ∧ t = (s.failAcquire s.acqCount).tick) ∨
     (s.cur.srcFail = false ∧
      ((∃ d, s.cur.srcAnswer = some (.full d) ∧ d.length = s.cfg.frameLen ∧ t = s.takeFrame d) ∨
       (∃ k, (s.cur.srcAnswer = some (.short k) ∨ s.cur.srcAnswer = some (.error k)) ∧ k < s.cfg.frameLen ∧
          t = s.failAcquire k) ∨
       (s.cur.srcAnswer = none ∧ s.cur.srcValid = true ∧ s.acqCount < s.cfg.frameLen ∧
          t = (s.takeByte s.cur.srcData).tick) ∨
       (s.cur.srcAnswer = none ∧ s.cur.srcValid = false ∧ t = s.tick)))) := by
  unfold execAcquire at h
  split at h
  · next he =>
    refine ⟨(enabled_iff s .acquire).mp he, ?_⟩
    split at h
    · next hf => cases h; exact .inl ⟨hf, rfl⟩
    · next hf =>
      refine .inr ⟨by simpa using hf, ?_⟩
      split at h
      · next a ha =>
        cases a with
        | full d =>
          simp only [acquireAnswer] at h
          split at h
          · next hl => cases h; exact .inl ⟨d, ha, hl, rfl⟩
          · cases h
        | short k =>
          simp only [acquireAnswer] at h
          split at h
          · next hl => cases h; exact .inr (.inl ⟨k, .inl ha, hl, rfl⟩)
          · cases h
        | error k =>
          simp only [acquireAnswer] at h
          split at h
          · next hl => cases h; exact .inr (.inl ⟨k, .inr ha, hl, rfl⟩)
          · cases h
      · next ha =>
        unfold acquireTick at h
        split at h
        · next hv =>
          split at h
          · next hl => cases h; exact .inr (.inr (.inl ⟨ha, hv, hl, rfl⟩))
          · cases h
        · next hv => cases h; exact .inr (.inr (.inr ⟨ha, by simpa using hv, rfl⟩))
  · cases h

theorem execEncode_cases {s t : State} (h : execEncode s = .next t) :
    (s.phase = .encode ∧ s.halted = false ∧ s.txBusy = false) ∧ s.byteIdx < s.cfg.frameLen ∧
    ∃ b, s.readFb s.byteIdx = some b ∧ t = s.encodeWindow b := by
  unfold execEncode at h
  split at h
  · next he =>
    split at h
    · next hi =>
      split at h
      · next b hb => cases h; exact ⟨(enabled_iff s .encode).mp he, hi, b, hb, rfl⟩
      · cases h
    · cases h
  · cases h

theorem execFrame_cases {s t : State} (h : execFrame s = .next t) :
    (s.phase = .frame ∧ s.halted = false ∧ s.txBusy = false) ∧ t = s.closeFrame := by
  unfold execFrame at h
  split at h
  · next he => cases h; exact ⟨(enabled_iff s .frame).mp he, rfl⟩
  · cases h

theorem execTransmit_cases {s t : State} (h : execTransmit s = .next t) :
    (s.phase = .transmit ∧ s.halted = false) ∧
    ((s.txBusy = true ∧ s.cur.txErr = true ∧ t = s.failTransmission) ∨
     (s.txBusy = true ∧ s.cur.txErr = false ∧ t = s) ∨
     (s.txBusy = false ∧ ∃ buf, s.buffer = some buf ∧ t = s.submit buf)) := by
  unfold execTransmit at h
  split at h
  · next he =>
    refine ⟨by simpa using he, ?_⟩
    split at h
    · next hb =>
      split at h
      · next hx => cases h; exact .inl ⟨hb, hx, rfl⟩
      · next hx => cases h; exact .inr (.inl ⟨hb, by simpa using hx, rfl⟩)
    · next hb =>
      split at h
      · next buf hbuf => cases h; exact .inr (.inr ⟨by simpa using hb, buf, hbuf, rfl⟩)
      · cases h
  · cases h

theorem execIdle_cases {s t : State} (h : execIdle s = .next t) :
    (s.phase = .idle ∧ s.halted = false ∧ s.txBusy = false) ∧
    ((s.idleCnt = 0 ∧ t = s.enterAcquire) ∨ (s.idleCnt ≠ 0 ∧ t = s.countDown)) := by
  unfold execIdle at h
  split at h
  · next he =>
    refine ⟨(enabled_iff s .idle).mp he, ?_⟩
    split at h
    · next hz => cases h; exact .inl ⟨hz, rfl⟩
    · next hz => cases h; exact .inr ⟨hz, rfl⟩
  · cases h

theorem execHalt_cases {s t : State} (h : execHalt s = .next t) :
    (s.phase = .halted ∧ s.halted = true) ∧ t = s := by
  unfold execHalt at h
  split at h
  · next he => cases h; exact ⟨by simpa using he, rfl⟩
  · cases h

theorem execTxEmit_cases {s t : State} (h : execTxEmit s = .next t) :
    s.txBusy = true ∧ s.symIdx ≤ s.cfg.lastSlot ∧ ∃ p, s.readPb s.symIdx = some p ∧ t = emitSymbol p s := by
  unfold execTxEmit at h
  split at h
  · next he =>
    split at h
    · next p hp => cases h; exact ⟨by simp_all, by simp_all, p, hp, rfl⟩
    · cases h
  · cases h

theorem emitSymbol_cases (p : PulseSymbol) (s : State) :
    (s.ticksLeft ≠ 0 ∧ emitSymbol p s = s.drive (p.level s.half)) ∨
    (s.ticksLeft = 0 ∧ s.half = .first ∧ emitSymbol p s = s.toSecondHalf p) ∨
    (s.ticksLeft = 0 ∧ s.half = .second ∧ emitSymbol p s = s.toNextSymbol) := by
  unfold emitSymbol
  split
  · next hz => cases hh : s.half <;> simp [hz]
  · next hz => exact .inl ⟨hz, rfl⟩

theorem execTxDone_cases {s t : State} (h : execTxDone s = .next t) :
    s.txBusy = true ∧ s.symIdx = s.cfg.bufferLen ∧ t = s.endTransmission.resumeAfterCompletion := by
  unfold execTxDone at h
  split at h
  · next he => cases h; exact ⟨by simp_all, by simp_all, rfl⟩
  · cases h

end Sys2Proof.Machine
end

