-- ==== Sys2Proof/Laws/Memory.lean ====
section
/-! SUPPORT. The laws of the two buffers: read after write, and that every memory operation keeps the canonical form. -/

namespace Sys2Proof.Machine

variable {α : Type}

@[simp] theorem Memory.read_nil (a : Nat) : Memory.read ([] : List (Nat × α)) a = none := rfl

@[simp] theorem Memory.read_write_same (m : List (Nat × α)) (a : Nat) (v : α) :
    Memory.read (Memory.write m a v) a = some v := by
  induction m with
  | nil => simp [Memory.write, Memory.read]
  | cons e m ih =>
    obtain ⟨k, w⟩ := e
    unfold Memory.write
    split_ifs with h1 h2
    · simp [Memory.read]
    · simp [Memory.read]
    · simp [Memory.read, Ne.symm h2, ih]

theorem Memory.read_write_other (m : List (Nat × α)) {a b : Nat} (v : α) (h : b ≠ a) :
    Memory.read (Memory.write m a v) b = Memory.read m b := by
  induction m with
  | nil => simp [Memory.write, Memory.read, h.symm]
  | cons e m ih =>
    obtain ⟨k, w⟩ := e
    unfold Memory.write
    split_ifs with h1 h2
    · simp [Memory.read, h.symm]
    · subst h2; simp [Memory.read, h.symm]
    · simp only [Memory.read, ih]

theorem Memory.read_write (m : List (Nat × α)) (a b : Nat) (v : α) :
    Memory.read (Memory.write m a v) b = if b = a then some v else Memory.read m b := by
  split_ifs with h
  · subst h; simp
  · exact Memory.read_write_other m v h

theorem Memory.mem_write {m : List (Nat × α)} {a : Nat} {v : α} {e : Nat × α} (h : e ∈ Memory.write m a v) :
    e = (a, v) ∨ e ∈ m := by
  induction m with
  | nil => simpa [Memory.write] using h
  | cons x m ih =>
    obtain ⟨k, w⟩ := x
    unfold Memory.write at h
    split_ifs at h with h1 h2
    · simpa using h
    · rcases List.mem_cons.mp h with h | h
      · exact .inl h
      · exact .inr (List.mem_cons_of_mem _ h)
    · rcases List.mem_cons.mp h with h | h
      · exact .inr (h ▸ List.mem_cons_self)
      · exact (ih h).imp id (List.mem_cons_of_mem _)

theorem Memory.wf_iff {n : Nat} {m : List (Nat × α)} : Memory.wf n m = true ↔
    (m.map Prod.fst).Pairwise (· < ·) ∧ ∀ a ∈ m.map Prod.fst, a < n := by
  rw [Memory.wf, Bool.and_eq_true, decide_eq_true_eq, decide_eq_true_eq]

@[simp] theorem Memory.wf_nil (n : Nat) : Memory.wf n ([] : List (Nat × α)) = true := by
  rw [Memory.wf_iff]; simp

/-- A write of a slot of the buffer keeps the canonical form. -/
theorem Memory.wf_write {n a : Nat} {m : List (Nat × α)} (v : α) (hm : Memory.wf n m = true) (ha : a < n) :
    Memory.wf n (Memory.write m a v) = true := by
  obtain ⟨hs, hb⟩ := Memory.wf_iff.mp hm
  refine Memory.wf_iff.mpr ⟨?_, ?_⟩
  · clear hb hm
    induction m with
    | nil => simp [Memory.write]
    | cons e m ih =>
      obtain ⟨k, w⟩ := e
      simp only [List.map_cons, List.pairwise_cons] at hs
      unfold Memory.write
      split_ifs with h1 h2
      · simp only [List.map_cons, List.pairwise_cons, List.mem_cons]
        exact ⟨fun b hb => hb.elim (fun h => h ▸ h1) (fun h => h1.trans (hs.1 b h)), hs⟩
      · subst h2; exact List.pairwise_cons.mpr hs
      · refine List.pairwise_cons.mpr ⟨fun b hb => ?_, ih hs.2⟩
        obtain ⟨e, he, rfl⟩ := List.mem_map.mp hb
        rcases Memory.mem_write he with rfl | he
        · simp only; omega
        · exact hs.1 _ (List.mem_map_of_mem he)
  · intro b hb'
    obtain ⟨e, he, rfl⟩ := List.mem_map.mp hb'
    rcases Memory.mem_write he with rfl | he
    · exact ha
    · exact hb _ (List.mem_map_of_mem he)

/-- A write of consecutive slots of the buffer keeps the canonical form. -/
theorem Memory.wf_writeSpan {n : Nat} (vs : List α) :
    ∀ {a : Nat} {m : List (Nat × α)}, Memory.wf n m = true → a + vs.length ≤ n →
      Memory.wf n (Memory.writeSpan m a vs) = true := by
  induction vs with
  | nil => intro a m hm _; exact hm
  | cons v vs ih =>
    intro a m hm ha
    simp only [List.length_cons] at ha
    exact ih (Memory.wf_write v hm (by omega)) (by omega)

theorem Memory.mem_writeSpan {e : Nat × α} (vs : List α) :
    ∀ {a : Nat} {m : List (Nat × α)}, e ∈ Memory.writeSpan m a vs → e.2 ∈ vs ∨ e ∈ m := by
  induction vs with
  | nil => intro a m h; exact .inr h
  | cons v vs ih =>
    intro a m h
    rcases ih h with h | h
    · exact .inl (List.mem_cons_of_mem _ h)
    · rcases Memory.mem_write h with rfl | h
      · exact .inl List.mem_cons_self
      · exact .inr h

/-- What a slot holds after a write of consecutive slots. -/
theorem Memory.read_writeSpan (vs : List α) :
    ∀ (m : List (Nat × α)) (a b : Nat), Memory.read (Memory.writeSpan m a vs) b =
      if a ≤ b ∧ b < a + vs.length then vs[b - a]? else Memory.read m b := by
  induction vs with
  | nil => intro m a b; simp [Memory.writeSpan]
  | cons v vs ih =>
    intro m a b
    rw [Memory.writeSpan, ih, Memory.read_write]
    by_cases hb : b = a
    · subst hb; simp
    · by_cases h : a + 1 ≤ b ∧ b < a + 1 + vs.length
      · obtain ⟨j, rfl⟩ : ∃ j, b = a + 1 + j := ⟨b - (a + 1), by omega⟩
        have e1 : a + 1 + j - (a + 1) = j := by omega
        have e2 : a + 1 + j - a = j + 1 := by omega
        rw [if_pos h, if_pos (by simp only [List.length_cons]; omega), e1, e2, List.getElem?_cons_succ]
      · rw [if_neg h, if_neg hb, if_neg (by simp only [List.length_cons]; omega)]

/-- A span read is determined by the slots it reads. -/
theorem Memory.readSpan_congr {m m' : List (Nat × α)} (n : Nat) :
    ∀ {a : Nat}, (∀ i, a ≤ i → i < a + n → Memory.read m i = Memory.read m' i) →
      Memory.readSpan m a n = Memory.readSpan m' a n := by
  induction n with
  | zero => intro a _; rfl
  | succ n ih =>
    intro a h
    rw [Memory.readSpan, Memory.readSpan, h a (by omega) (by omega),
      ih fun i h1 h2 => h i (by omega) (by omega)]

/-- A span that reads as `vs` has `vs[i]` in slot `a + i`. -/
theorem Memory.readSpan_eq_some (n : Nat) :
    ∀ {m : List (Nat × α)} {a : Nat} {vs : List α}, Memory.readSpan m a n = some vs ↔
      vs.length = n ∧ ∀ i, i < n → Memory.read m (a + i) = vs[i]? := by
  induction n with
  | zero =>
    intro m a vs
    simp only [Memory.readSpan, Option.some.injEq, Nat.not_lt_zero, false_implies, implies_true, and_true]
    exact ⟨fun h => by simp [← h], fun h => (List.length_eq_zero_iff.mp h).symm⟩
  | succ n ih =>
    intro m a vs
    have key : Memory.readSpan m a (n + 1) = some vs ↔
        ∃ v vs', vs = v :: vs' ∧ Memory.read m a = some v ∧ Memory.readSpan m (a + 1) n = some vs' := by
      rw [Memory.readSpan]
      constructor
      · intro h
        split at h
        · next v vs' h1 h2 => exact ⟨v, vs', (Option.some.inj h).symm, h1, h2⟩
        · cases h
      · rintro ⟨v, vs', rfl, h1, h2⟩
        rw [h1, h2]
    rw [key]
    constructor
    · rintro ⟨v, vs', rfl, h1, h2⟩
      obtain ⟨hl, hr⟩ := ih.mp h2
      refine ⟨by simp [hl], fun i hi => ?_⟩
      cases i with
      | zero => simpa using h1
      | succ i =>
        have := hr i (by omega)
        rw [List.getElem?_cons_succ, ← this]
        congr 1; omega
    · rintro ⟨hl, hr⟩
      cases vs with
      | nil => simp at hl
      | cons v vs' =>
        refine ⟨v, vs', rfl, by simpa using hr 0 (by omega), ih.mpr ⟨by simpa using hl, fun i hi => ?_⟩⟩
        have := hr (i + 1) (by omega)
        rw [List.getElem?_cons_succ] at this
        rw [← this]
        congr 1; omega

/-- Writing a sequence and reading it back. -/
theorem Memory.readSpan_writeSpan (m : List (Nat × α)) (a : Nat) (vs : List α) :
    Memory.readSpan (Memory.writeSpan m a vs) a vs.length = some vs :=
  (Memory.readSpan_eq_some _).mpr ⟨rfl, fun i hi => by
    rw [Memory.read_writeSpan, if_pos ⟨by omega, by omega⟩, Nat.add_sub_cancel_left]⟩

/-- Two spans side by side are one span. -/
theorem Memory.readSpan_append {m : List (Nat × α)} {a n k : Nat} {us vs : List α}
    (h1 : Memory.readSpan m a n = some us) (h2 : Memory.readSpan m (a + n) k = some vs) :
    Memory.readSpan m a (n + k) = some (us ++ vs) := by
  obtain ⟨l1, r1⟩ := (Memory.readSpan_eq_some _).mp h1
  obtain ⟨l2, r2⟩ := (Memory.readSpan_eq_some _).mp h2
  refine (Memory.readSpan_eq_some _).mpr ⟨by simp [l1, l2], fun i hi => ?_⟩
  by_cases h : i < n
  · rw [r1 i h, List.getElem?_append_left (by omega)]
  · have := r2 (i - n) (by omega)
    rw [List.getElem?_append_right (by omega), l1, ← this]
    congr 1; omega

/-- The slot a read finds is listed. -/
theorem Memory.mem_of_read {m : List (Nat × α)} {a : Nat} {v : α} (h : Memory.read m a = some v) : (a, v) ∈ m := by
  induction m with
  | nil => simp at h
  | cons e m ih =>
    obtain ⟨k, w⟩ := e
    unfold Memory.read at h
    split_ifs at h with hk
    · cases h; subst hk; exact List.mem_cons_self
    · exact List.mem_cons_of_mem _ (ih h)

/-- A buffer in canonical form lists nothing outside its range. -/
theorem Memory.read_outside {n a : Nat} {m : List (Nat × α)} (hm : Memory.wf n m = true) (ha : n ≤ a) :
    Memory.read m a = none := by
  cases h : Memory.read m a with
  | none => rfl
  | some v =>
    have := (Memory.wf_iff.mp hm).2 a (List.mem_map.mpr ⟨(a, v), Memory.mem_of_read h, rfl⟩)
    omega

/-- The memory after a failed ACQUIRE is in canonical form. -/
theorem freeFrame_wf (c : Config) (n : Nat) : Memory.wf c.frameLen (freeFrame c n) = true := by
  have h : (freeFrame c n).map Prod.fst = List.range c.frameLen := by
    simp [freeFrame, List.map_map, Function.comp_def]
  rw [Memory.wf_iff, h]
  exact ⟨List.pairwise_lt_range, fun a ha => List.mem_range.mp ha⟩

end Sys2Proof.Machine
end

