-- ==== Sys2Proof/Laws/Operands.lean ====
section
/-! SUPPORT. The small lemmas of the pure functions: lengths, members, and how they split. -/

namespace Sys2Proof

@[simp] theorem encodeByte_length (c : Config) (o : BitOrder) (b : Byte) : (encodeByte c o b).length = 8 := by
  simp [encodeByte]

/-- `out[k] = sym(bitsel(b, k))` (R110). -/
theorem encodeByte_getElem? (c : Config) (o : BitOrder) (b : Byte) {k : Nat} (h : k < 8) :
    (encodeByte c o b)[k]? = some (c.sym (bitsel o b k)) := by
  simp [encodeByte, h]

theorem sym_cases (c : Config) (v : Bool) : c.sym v = c.symS0 ∨ c.sym v = c.symS1 := by
  cases v <;> simp [Config.sym]

theorem mem_encodeByte {c : Config} {o : BitOrder} {b : Byte} {p : PulseSymbol} (h : p ∈ encodeByte c o b) :
    p = c.symS0 ∨ p = c.symS1 := by
  obtain ⟨k, -, rfl⟩ := List.mem_map.mp h
  exact sym_cases c _

@[simp] theorem encodeBytes_nil (c : Config) (o : BitOrder) : encodeBytes c o [] = [] := rfl

theorem encodeBytes_append (c : Config) (o : BitOrder) (f g : List Byte) :
    encodeBytes c o (f ++ g) = encodeBytes c o f ++ encodeBytes c o g := by
  simp [encodeBytes]

theorem encodeBytes_singleton (c : Config) (o : BitOrder) (b : Byte) : encodeBytes c o [b] = encodeByte c o b := by
  simp [encodeBytes]

@[simp] theorem encodeBytes_length (c : Config) (o : BitOrder) (f : List Byte) :
    (encodeBytes c o f).length = 8 * f.length := by
  induction f with
  | nil => rfl
  | cons b f ih =>
    rw [encodeBytes, List.flatMap_cons, List.length_append, encodeByte_length]
    rw [encodeBytes] at ih
    rw [ih, List.length_cons]; omega

theorem mem_encodeBytes {c : Config} {o : BitOrder} {f : List Byte} {p : PulseSymbol} (h : p ∈ encodeBytes c o f) :
    p = c.symS0 ∨ p = c.symS1 := by
  obtain ⟨b, -, hb⟩ := List.mem_flatMap.mp h
  exact mem_encodeByte hb

theorem buildPb_length (c : Config) (o : BitOrder) {f : List Byte} (h : f.length = c.frameLen) :
    (buildPb c o f).length = c.bufferLen := by
  simp only [buildPb, List.length_append, encodeBytes_length, h, List.length_cons, List.length_nil,
    Config.frameLen, Config.bufferLen]
  omega

theorem mem_buildPb {c : Config} {o : BitOrder} {f : List Byte} {p : PulseSymbol} (h : p ∈ buildPb c o f) :
    p = c.symS0 ∨ p = c.symS1 ∨ p = c.symSR := by
  rcases List.mem_append.mp h with h | h
  · exact (mem_encodeBytes h).imp id .inl
  · exact .inr (.inr (List.mem_singleton.mp h))

@[simp] theorem ticks_nil : ticks [] = [] := rfl

theorem ticks_append (p q : List PulseSymbol) : ticks (p ++ q) = ticks p ++ ticks q := by
  simp [ticks]

theorem ticks_cons (p : PulseSymbol) (q : List PulseSymbol) :
    ticks (p :: q) = List.replicate p.d0 p.l0 ++ List.replicate p.d1 p.l1 ++ ticks q := by
  simp [ticks, segs, List.append_assoc]

/-- What a legal configuration says, field by field (R8, R9). -/
theorem legal_iff (c : Config) : c.legal = true ↔
    1 ≤ c.ledCount ∧ c.ledCount ≤ c.ledMax ∧ 1 ≤ c.tickNum ∧ 1 ≤ c.tickDen ∧ 1 ≤ c.durW ∧
    (1 ≤ c.t0h ∧ c.t0h < 2 ^ c.durW) ∧ (1 ≤ c.t0l ∧ c.t0l < 2 ^ c.durW) ∧
    (1 ≤ c.t1h ∧ c.t1h < 2 ^ c.durW) ∧ (1 ≤ c.t1l ∧ c.t1l < 2 ^ c.durW) ∧
    c.rst0 < 2 ^ c.durW ∧ c.rst1 < 2 ^ c.durW ∧ c.t1h ≠ c.t0h := by
  simp only [Config.legal, Config.legalDuration, durationFits, Bool.and_eq_true, decide_eq_true_eq, and_assoc]

end Sys2Proof
end

