-- ==== Sys2Proof/Laws/PerInstr.lean ====
section
/-! SUPPORT. Facts about every instruction as syntax, one lemma per constructor. `EncodedLength`: the word the encoder
gives has the number of bytes its format takes, so the decoder never rejects it for its length. -/

namespace Sys2Proof

theorem bytesOf_length (n : Nat) : ∀ w, (bytesOf n w).length = n := by
  induction n with
  | zero => intro w; rfl
  | succ n ih => intro w; simp [bytesOf, ih]

/-- Bytes hold the number they were made from, as far as they reach. -/
theorem valueOf_bytesOf (n : Nat) : ∀ w, valueOf (bytesOf n w) = w % 256 ^ n := by
  induction n with
  | zero => intro w; simp [bytesOf, valueOf, Nat.mod_one]
  | succ n ih =>
    intro w
    have h : 256 ^ (n + 1) = 256 * 256 ^ n := by rw [Nat.pow_succ, Nat.mul_comm]
    rw [bytesOf, valueOf, ih, BitVec.toNat_ofNat, h, Nat.mod_mul]

namespace Laws.EncodedLength

/-- The encoder's word has its format's length, in every configuration. -/
def Statement (i : Instr) : Prop := ∀ c : Config, (encode c i).bytes.length = (encode c i).fmt.length

theorem acquire : Statement .acquire := fun _ => rfl
theorem encode : Statement .encode := fun _ => rfl
theorem frame : Statement .frame := fun _ => rfl
theorem transmit : Statement .transmit := fun _ => rfl
theorem idle : Statement .idle := fun _ => rfl
theorem halt : Statement .halt := fun _ => rfl
theorem txEmit : Statement .txEmit := fun _ => rfl
theorem txDone : Statement .txDone := fun _ => rfl
theorem encodeByte (o : BitOrder) (b : Byte) : Statement (.encodeByte o b) := fun _ => bytesOf_length 2 _
theorem decodeSymbol (p : PulseSymbol) : Statement (.decodeSymbol p) := fun _ => bytesOf_length 4 _
theorem s0 : Statement .s0 := fun _ => bytesOf_length 4 _
theorem s1 : Statement .s1 := fun _ => bytesOf_length 4 _
theorem sr : Statement .sr := fun _ => bytesOf_length 4 _

end Laws.EncodedLength

end Sys2Proof
end

