-- ==== Sys2Proof/Laws/Step.lean ====
section
/-! SUPPORT. What one step can do, said once: the inversion of `step`, and what the words of the phases and of TX
decode to. -/

namespace Sys2Proof.Machine

@[simp] theorem decode_acquire (c : Config) : decode c Phase.acquire.asCode = .ok .acquire := rfl
@[simp] theorem decode_encode (c : Config) : decode c Phase.encode.asCode = .ok .encode := rfl
@[simp] theorem decode_frame (c : Config) : decode c Phase.frame.asCode = .ok .frame := rfl
@[simp] theorem decode_transmit (c : Config) : decode c Phase.transmit.asCode = .ok .transmit := rfl
@[simp] theorem decode_idle (c : Config) : decode c Phase.idle.asCode = .ok .idle := rfl
@[simp] theorem decode_halted (c : Config) : decode c Phase.halted.asCode = .ok .halt := rfl

/-- The operation PHASE selects (R90). -/
def phaseInstr : Phase → Instr
  | .acquire => .acquire
  | .encode => .encode
  | .frame => .frame
  | .transmit => .transmit
  | .idle => .idle
  | .halted => .halt

theorem decode_phase (c : Config) (p : Phase) : decode c p.asCode = .ok (phaseInstr p) := by cases p <;> rfl

theorem decode_txStep (c : Config) (s : State) :
    decode c s.txStepCode = .ok (if s.symIdx ≤ s.cfg.lastSlot then .txEmit else .txDone) := by
  unfold State.txStepCode
  split_ifs <;> rfl

/-- The operation the state selects when no call waits (R90, R176, R177). -/
def State.operation (s : State) : Instr :=
  if s.halted then .halt
  else if s.txBusy then
    if s.cur.txErr then .transmit
    else if s.symIdx ≤ s.cfg.lastSlot then .txEmit else .txDone
  else phaseInstr s.phase

theorem decode_selected (c : Config) (s : State) : decode c s.selected = .ok s.operation := by
  unfold State.selected State.operation
  split_ifs <;> simp_all [decode_phase, decode_txStep, phaseInstr]

theorem fetch_of_not_pending {s : State} (h : s.callPending = false) : s.fetch = s.selected := by
  unfold State.callPending at h
  unfold State.fetch
  split at h <;> simp_all

/-- The instruction a call word decodes to is a function or a symbol. -/
theorem decode_call {c : Config} {k : Code} {i : Instr} (hk : k.fmt.isCall = true) (h : decode c k = .ok i) :
    (∃ o b, i = .encodeByte o b) ∨ (∃ p, i = .decodeSymbol p) ∨ i = .s0 ∨ i = .s1 ∨ i = .sr := by
  unfold decode at h
  split at h
  · cases hf : k.fmt <;> rw [hf] at h hk
    · cases hk
    · cases hk
    · simp only [decodeEncodeByte] at h
      split at h <;> cases h
      exact .inl ⟨_, _, rfl⟩
    · simp only [decodeDecodeSymbol] at h
      split at h <;> cases h
      exact .inr (.inl ⟨_, rfl⟩)
    · simp only [decodeConstant] at h
      split_ifs at h <;> cases h <;> simp
  · cases h

/-- Everything a step can do when it answers a next state. -/
theorem step_cases {s t : State} (h : step s = .next t) :
    s.cfg.legal = true ∧
    ((s.callPending = true ∧ ∃ r, t = { s.deliver r with call := none }) ∨
     (s.callPending = false ∧
      ((s.cur.rst = true ∧ t = s.holdReset.pop) ∨
       (s.cur.rst = false ∧ s.inReset = true ∧ t = (s.releaseReset s.cur.cfgOk s.cur.cfgBitOrder).pop) ∨
       (s.cur.rst = false ∧ s.inReset = false ∧ s.held = true ∧ t = s.tick.pop) ∨
       (s.cur.rst = false ∧ s.inReset = false ∧ s.held = false ∧
          ∃ u, exec s.operation s = .next u ∧ t = s.settle u)))) := by
  unfold step at h
  split at h
  · next hl =>
    refine ⟨hl, ?_⟩
    split at h
    · next hc =>
      refine .inl ⟨hc, ?_⟩
      unfold runDecoded at h
      split at h
      · next i hi =>
        have hk : ∃ k, s.fetch = k ∧ k.fmt.isCall = true := by
          unfold State.callPending at hc
          unfold State.fetch
          split at hc <;> simp_all
        obtain ⟨k, hk1, hk2⟩ := hk
        rw [hk1] at hi
        split at h
        · next u hu =>
          cases h
          have hs : ∀ u, s.settle u = { u with call := none } := fun u => by simp [State.settle, hc]
          rcases decode_call hk2 hi with ⟨o, b, rfl⟩ | ⟨p, rfl⟩ | rfl | rfl | rfl <;>
            (simp only [exec] at hu; cases hu; exact ⟨_, hs _⟩)
        · cases h
        · cases h
      · cases h
    · next hc =>
      have hc' : s.callPending = false := by simpa using hc
      refine .inr ⟨hc', ?_⟩
      split at h
      · next hr => cases h; exact .inl ⟨hr, rfl⟩
      · next hr =>
        have hr' : s.cur.rst = false := by simpa using hr
        split at h
        · next hi => cases h; exact .inr (.inl ⟨hr', hi, rfl⟩)
        · next hi =>
          have hi' : s.inReset = false := by simpa using hi
          split at h
          · next hh => cases h; exact .inr (.inr (.inl ⟨hr', hi', hh, rfl⟩))
          · next hh =>
            refine .inr (.inr (.inr ⟨hr', hi', by simpa using hh, ?_⟩))
            rw [fetch_of_not_pending hc', decode_selected] at h
            simp only [runDecoded] at h
            split at h
            · next u hu => cases h; exact ⟨u, hu, rfl⟩
            · cases h
            · cases h
  · cases h

/-- What the step does around an operation that is no call: the draw is used up, and a halted block lets a tick
pass. -/
theorem settle_of_not_pending {s : State} (h : s.callPending = false) (t : State) :
    s.settle t = if s.halted then t.tick.pop else t.pop := by
  unfold State.settle; simp [h]

/-- The step when no call waits, with the operation the state selects written out. -/
theorem step_of_not_pending {s : State} (hc : s.callPending = false) :
    step s =
      if s.cfg.legal then
        if s.cur.rst then .next s.holdReset.pop
        else if s.inReset then .next (s.releaseReset s.cur.cfgOk s.cur.cfgBitOrder).pop
        else if s.held then .next s.tick.pop
        else runDecoded s (.ok s.operation)
      else .refused .illegalConfiguration := by
  unfold step
  simp only [hc, fetch_of_not_pending hc, decode_selected, Bool.false_eq_true, if_false]

/-- A tick in reset (R210). -/
theorem step_of_reset {s : State} (hl : s.cfg.legal = true) (hc : s.callPending = false) (hr : s.cur.rst = true) :
    step s = .next s.holdReset.pop := by
  simp [step_of_not_pending hc, hl, hr]

/-- The release of reset (R210). -/
theorem step_of_release {s : State} (hl : s.cfg.legal = true) (hc : s.callPending = false) (hr : s.cur.rst = false)
    (hi : s.inReset = true) : step s = .next (s.releaseReset s.cur.cfgOk s.cur.cfgBitOrder).pop := by
  simp [step_of_not_pending hc, hl, hr, hi]

/-- One more tick of a wait (log 10). -/
theorem step_of_held {s : State} (hl : s.cfg.legal = true) (hc : s.callPending = false) (hr : s.cur.rst = false)
    (hi : s.inReset = false) (hh : s.held = true) : step s = .next s.tick.pop := by
  simp [step_of_not_pending hc, hl, hr, hi, hh]

/-- Any other step runs the operation the state selects. -/
theorem step_of_operation {s : State} (hl : s.cfg.legal = true) (hc : s.callPending = false) (hr : s.cur.rst = false)
    (hi : s.inReset = false) (hh : s.held = false) : step s = runDecoded s (.ok s.operation) := by
  simp [step_of_not_pending hc, hl, hr, hi, hh]

/-- A step that is neither a call nor a reset nor a wait runs the operation the state selects. -/
theorem step_eq_exec {s : State} (hl : s.cfg.legal = true) (hc : s.callPending = false) (hr : s.cur.rst = false)
    (hi : s.inReset = false) (hh : s.held = false) {u : State} (hu : exec s.operation s = .next u) :
    step s = .next (s.settle u) := by
  unfold step
  simp [hl, hc, hr, hi, hh, fetch_of_not_pending hc, decode_selected, runDecoded, hu]

end Sys2Proof.Machine
end

