-- ==== Sys2Proof/Laws/Safety.lean ====
section
/-! SUPPORT. The small lemmas of the invariants: what each layer does not read, and what the buffers
and the trace give. -/

namespace Sys2Proof.Machine

@[simp] theorem run_zero (s : State) : run 0 s = .next s := rfl

theorem run_succ {s t : State} (n : Nat) (h : step s = .next t) : run (n + 1) s = run n t := by
  rw [run, h]; rfl

theorem run_succ_inv {s t : State} {n : Nat} (h : run (n + 1) s = .next t) :
    ∃ u, step s = .next u ∧ run n u = .next t := by
  rw [run] at h
  cases hs : step s with
  | next u => rw [hs] at h; exact ⟨u, rfl, h⟩
  | fault r => rw [hs] at h; cases h
  | refused r => rw [hs] at h; cases h

/-- A run in two parts. -/
theorem run_add (m n : Nat) : ∀ {s t : State}, run m s = .next t → run (m + n) s = run n t := by
  induction m with
  | zero => intro s t h; rw [run_zero] at h; injection h with h; rw [h, Nat.zero_add]
  | succ m ih =>
    intro s t h
    obtain ⟨u, hu, hr⟩ := run_succ_inv h
    rw [Nat.succ_add, run_succ _ hu]
    exact ih hr

/-- The first draw of an undisturbed stretch. -/
theorem State.undisturbed_cur {s : State} {n : Nat} (h : s.undisturbed (n + 1)) :
    s.cur.rst = false ∧ s.cur.txErr = false ∧ s.cur.hold = false := by
  unfold State.cur
  cases hi : s.inputs with
  | nil => simp [Inputs.idle]
  | cons d ds => exact h d (by simp [hi])

theorem State.undisturbed_le {s : State} {m n : Nat} (h : s.undisturbed n) (hmn : m ≤ n) : s.undisturbed m :=
  fun d hd => h d (List.take_subset_take_left _ hmn hd)

/-- What is left of an undisturbed stretch. -/
theorem State.undisturbed_drop {s t : State} {m n : Nat} (h : s.undisturbed (m + n))
    (he : t.inputs = s.inputs.drop m) : t.undisturbed n := by
  intro d hd
  rw [he] at hd
  apply h
  rw [List.take_add]
  exact List.mem_append_right _ hd

/-- Shape does not read the logs, the draws, the call slot, DOUT, HALF or the order. -/
theorem Shape.congr {s t : State} (h : Shape s) (e : t = { s with
      trace := t.trace, log := t.log, inputs := t.inputs, call := t.call, result := t.result, dout := t.dout
      half := t.half, freeCount := t.freeCount, txMark := t.txMark, inReset := t.inReset
      bitOrderQ := t.bitOrderQ }) : Shape t := by
  rw [e]
  exact ⟨h.legal, h.fbForm, h.pbForm, h.pbFits, h.haltedPhase, h.causeHalted, h.infoBound, h.infoSource, h.busyPhase,
    h.acqBound, h.acqOpen, h.byteBound, h.byteOpen, h.byteDone, h.symBound, h.idleBound, h.ticksBound⟩

/-- A symbol in PB lasts a number of ticks its field holds. -/
theorem Shape.firstTicks {s : State} (h : Shape s) (j : Nat) : s.firstTicks j < 2 ^ s.cfg.durW := by
  unfold State.firstTicks
  split
  · next p hp => exact (h.pbFits _ (Memory.mem_of_read hp)).1
  · exact Nat.two_pow_pos _

/-- The three symbols fit their fields (R9 (c)). -/
theorem sym_fits {c : Config} (h : c.legal = true) {p : PulseSymbol}
    (hp : p = c.symS0 ∨ p = c.symS1 ∨ p = c.symSR) :
    p.d0 < 2 ^ c.durW ∧ p.d1 < 2 ^ c.durW := by
  obtain ⟨_,_,_,_,_,⟨_,h1⟩,⟨_,h2⟩,⟨_,h3⟩,⟨_,h4⟩,h5,h6,_⟩ := (legal_iff c).mp h
  rcases hp with rfl | rfl | rfl <;> simp [Config.symS0, Config.symS1, Config.symSR, *]

theorem frameLen_pos {c : Config} (h : c.legal = true) : 0 < c.frameLen := by
  have := ((legal_iff c).mp h).1
  unfold Config.frameLen; omega

/-- Contents does not read the line, TX's position or the draws. -/
theorem Contents.congr {s t : State} (h : Contents s) (e : t = { s with
      trace := t.trace, inputs := t.inputs, call := t.call, result := t.result, dout := t.dout, half := t.half
      idleCnt := t.idleCnt, symIdx := t.symIdx, ticksLeft := t.ticksLeft, freeCount := t.freeCount
      txMark := t.txMark, inReset := t.inReset }) : Contents t := by
  rw [e]
  exact ⟨h.acquired, h.encoded, h.built, h.borrowed, h.logged⟩

/-- Slots that are all written read as a sequence. -/
theorem readSpan_exists {α : Type} {m : List (Nat × α)} {n : Nat} (h : ∀ i < n, (Memory.read m i).isSome = true) :
    ∃ vs, Memory.readSpan m 0 n = some vs := by
  refine ⟨(List.range n).filterMap (Memory.read m), ?_⟩
  induction n with
  | zero => rfl
  | succ n ih =>
    have h1 := ih fun i hi => h i (by omega)
    obtain ⟨v, hv⟩ := Option.isSome_iff_exists.mp (h n (by omega))
    have h2 : Memory.readSpan m (0 + n) 1 = some [v] := by simp [Memory.readSpan, hv]
    rw [List.range_succ, List.filterMap_append]
    simp only [List.filterMap_cons, hv, List.filterMap_nil]
    exact Memory.readSpan_append h1 h2

/-- Line does not read FB, LOOP's indices or the draws. -/
theorem Line.congr {s t : State} (h : Line s) (e : t = { s with
      fb := t.fb, acqCount := t.acqCount, byteIdx := t.byteIdx, inputs := t.inputs, call := t.call
      result := t.result, freeCount := t.freeCount, inReset := t.inReset }) : Line t := by
  rw [e]
  exact ⟨h.quiet, h.position, h.drivenHigh, h.emission, h.lowTime⟩

theorem trailingLow_append_rep (t : List Level) (n : Nat) :
    trailingLow (t ++ List.replicate n .low) = n + trailingLow t := by
  induction n with
  | zero => simp
  | succ n ih =>
    rw [List.replicate_succ', ← List.append_assoc]
    unfold trailingLow at *
    rw [List.reverse_append]
    simp only [List.reverse_singleton, List.singleton_append, List.takeWhile_cons, decide_true, if_true,
      List.length_cons, ih]
    omega

theorem trailingLow_snoc (t : List Level) : trailingLow (t ++ [.low]) = trailingLow t + 1 := by
  have := trailingLow_append_rep t 1
  simp at this; omega

theorem buffer_get {s : State} {buf : List PulseSymbol} (h : s.buffer = some buf) {j : Nat} (hj : j < s.cfg.bufferLen) :
    s.readPb j = buf[j]? := by
  have := (((Memory.readSpan_eq_some _).mp h).2 j hj)
  rw [Nat.zero_add] at this; exact this

/-- A whole transmission ends in the Low ticks of its tail (R147). -/
theorem tail_buildPb {c : Config} {o : BitOrder} {f : List Byte} (hl : c.legal = true) (hf : f.length = c.frameLen)
    (b : Nat) (x : List Level) :
    tailLow c (buildPb c o f) ≤ trailingLow (x ++ ticks (buildPb c o f) ++ List.replicate b .low) := by
  have hpos := ((legal_iff c).mp hl).1
  have hlen : (encodeBytes c o f).length = c.lastSlot := by
    rw [encodeBytes_length, hf]; unfold Config.frameLen Config.lastSlot; omega
  obtain ⟨init, p, hp⟩ : ∃ init p, encodeBytes c o f = init ++ [p] := by
    have hne : encodeBytes c o f ≠ [] := by
      intro h0; rw [h0] at hlen; simp [Config.lastSlot] at hlen; omega
    exact ⟨_, _, (List.dropLast_append_getLast hne).symm⟩
  have hil : init.length = c.lastSlot - 1 := by
    rw [hp] at hlen; simp at hlen; omega
  have hmem : p = c.symS0 ∨ p = c.symS1 := mem_encodeBytes (c := c) (o := o) (f := f) (by rw [hp]; simp)
  have hl1 : p.l1 = .low := by rcases hmem with rfl | rfl <;> rfl
  have ht : tailLow c (buildPb c o f) = p.d1 + c.rst0 + c.rst1 := by
    unfold tailLow buildPb
    rw [hp, ← hil]; simp
  rw [ht]
  unfold buildPb
  rw [hp, ticks_append, ticks_append, ticks_cons, ticks_cons, hl1]
  simp only [Config.symSR, ticks_nil, List.append_nil]
  have e : x ++ (ticks init ++ (List.replicate p.d0 p.l0 ++ List.replicate p.d1 Level.low)
      ++ (List.replicate c.rst0 Level.low ++ List.replicate c.rst1 Level.low)) ++ List.replicate b Level.low
      = (x ++ ticks init ++ List.replicate p.d0 p.l0) ++ List.replicate (p.d1 + c.rst0 + c.rst1 + b) .low := by
    simp [List.append_assoc, ← List.replicate_append_replicate]
  rw [e, trailingLow_append_rep]
  omega

end Sys2Proof.Machine
end

