-- ==== Sys2Proof/Tests/Slice0.lean ====
section
/-! SUPPORT. Tests whose expected results are worked out from spec/ (95_test_vectors.md and the rules), the refusals of
WellFormed, the words of every constructor, and a witness for the hypotheses of every statement that has any. -/

namespace Sys2Proof.Tests

open Sys2Proof Sys2Proof.Machine

/-! ### Small states -/

/-- The next state an outcome gives. -/
def nextOf : Host.Outcome State Fault Refusal → Option State
  | .next t => some t
  | .fault _ => none
  | .refused _ => none

/-- A small legal instance: one LED, durations 1 and 2, a gap of one tick. -/
def tiny : Config :=
  { Config.reference with
    ledMax := 1, t0h := 1, t0l := 2, t1h := 2, t1l := 1, durW := 2, latchTicks := 1 }

/-- The instance at a phase, nothing in flight, buffers unwritten, no draw listed. -/
def at' (p : Phase) : State := { State.reset with cfg := tiny, phase := p }

/-- A state whose next draw is `d`. -/
def drawing (d : Inputs) (s : State) : State := { s with inputs := [d] }

/-- The Pulse Buffer of the all-zero frame. -/
def zeroBuf : List PulseSymbol := buildPb tiny .msbFirst [0, 0, 0]

/-- FB holding the all-zero frame, PB holding its symbols. -/
def filled (s : State) : State :=
  { s with fb := Memory.writeSpan [] 0 [0, 0, 0], pb := Memory.writeSpan [] 0 zeroBuf }

/-- All symbols emitted, completion not yet signalled. -/
def emitted : State :=
  { filled (at' .transmit) with txBusy := true, symIdx := 25, log := [zeroBuf], trace := ticks zeroBuf }

/-- Ready for a second submit after one transmission and its gap. -/
def secondSubmit : State :=
  { filled (at' .transmit) with
    acqCount := 3, byteIdx := 3, log := [zeroBuf], trace := ticks zeroBuf ++ [.low] }

/-- Halted by a short read of two bytes. -/
def stopped : State :=
  { at' .halted with halted := true, faultCause := .source, faultInfo := 2, acqCount := 2 }

/-! ### WellFormed refuses -/

theorem test_refuses_wide_d0 : (Instr.decodeSymbol ⟨.high, 32768, .low, 0⟩).wellFormed Config.reference = false := by
  decide
theorem test_refuses_wide_d1 : (Instr.decodeSymbol ⟨.high, 0, .low, 32768⟩).wellFormed Config.reference = false := by
  decide
theorem test_refuses_d0_over_durW : (Instr.decodeSymbol ⟨.high, 4, .low, 0⟩).wellFormed tiny = false := by decide
theorem test_refuses_d1_over_durW : (Instr.decodeSymbol ⟨.high, 0, .low, 4⟩).wellFormed tiny = false := by decide
theorem test_refuses_unpackable_d0 :
    (Instr.decodeSymbol ⟨.high, 32768, .low, 0⟩).wellFormed { tiny with durW := 16 } = false := by decide
theorem test_refuses_unpackable_d1 :
    (Instr.decodeSymbol ⟨.high, 0, .low, 32768⟩).wellFormed { tiny with durW := 16 } = false := by decide
theorem test_refuses_unpackable_s0 :
    Instr.s0.wellFormed { tiny with t0h := 32768 } = false ∧ Instr.s0.wellFormed { tiny with t0l := 32768 } = false := by
  decide
theorem test_refuses_unpackable_s1 :
    Instr.s1.wellFormed { tiny with t1h := 32768 } = false ∧ Instr.s1.wellFormed { tiny with t1l := 32768 } = false := by
  decide
theorem test_refuses_unpackable_sr :
    Instr.sr.wellFormed { tiny with rst0 := 32768 } = false ∧ Instr.sr.wellFormed { tiny with rst1 := 32768 } = false := by
  decide

/-! ### Words, written out from the table's encodings (R90, R83, R84, R85, R86) -/

theorem test_word_acquire : decode tiny ⟨.phase, [0b00000000#8]⟩ = .ok .acquire := by decide
theorem test_word_encode : decode tiny ⟨.phase, [0b00000001#8]⟩ = .ok .encode := by decide
theorem test_word_frame : decode tiny ⟨.phase, [0b00000010#8]⟩ = .ok .frame := by decide
theorem test_word_transmit : decode tiny ⟨.phase, [0b00000011#8]⟩ = .ok .transmit := by decide
theorem test_word_idle : decode tiny ⟨.phase, [0b00000100#8]⟩ = .ok .idle := by decide
theorem test_word_halt : decode tiny ⟨.phase, [0b00000111#8]⟩ = .ok .halt := by decide
theorem test_word_reserved :
    decode tiny ⟨.phase, [0b00000101#8]⟩ = .bad .reservedPhase ∧
    decode tiny ⟨.phase, [0b00000110#8]⟩ = .bad .reservedPhase := by decide
theorem test_word_stray : decode tiny ⟨.phase, [0b00001000#8]⟩ = .bad .strayBits := by decide
/-- The byte codes of TXSTEP are the model's (log 14). -/
theorem test_word_txStep :
    decode tiny ⟨.txStep, [0#8]⟩ = .ok .txEmit ∧ decode tiny ⟨.txStep, [1#8]⟩ = .ok .txDone := by decide
/-- Row ENCODE_BYTE: `obbbbbbbb` = 0 10110000 and 1 00001101. -/
theorem test_word_encodeByte :
    decode tiny ⟨.encodeByte, [0b10110000#8, 0b00000000#8]⟩ = .ok (.encodeByte .msbFirst 0xB0#8) ∧
    decode tiny ⟨.encodeByte, [0b00001101#8, 0b00000001#8]⟩ = .ok (.encodeByte .lsbFirst 0x0D#8) := by decide
/-- `((High, 2), (Low, 3))` is 0x00038002; `((Low, 1), (High, 0))` is 0x80000001. -/
theorem test_word_decodeSymbol :
    decode tiny ⟨.decodeSymbol, [0x02#8, 0x80#8, 0x03#8, 0x00#8]⟩ = .ok (.decodeSymbol ⟨.high, 2, .low, 3⟩) ∧
    decode tiny ⟨.decodeSymbol, [0x01#8, 0x00#8, 0x00#8, 0x80#8]⟩ = .ok (.decodeSymbol ⟨.low, 1, .high, 0⟩) := by decide
/-- 0x00118008, 0x00098010 and 0x00000000 in the reference configuration. -/
theorem test_word_symbols :
    decode Config.reference ⟨.symbol, [0x08#8, 0x80#8, 0x11#8, 0x00#8]⟩ = .ok .s0 ∧
    decode Config.reference ⟨.symbol, [0x10#8, 0x80#8, 0x09#8, 0x00#8]⟩ = .ok .s1 ∧
    decode Config.reference ⟨.symbol, [0#8, 0#8, 0#8, 0#8]⟩ = .ok .sr ∧
    decode Config.reference ⟨.symbol, [0x0C#8, 0x80#8, 0x0D#8, 0x00#8]⟩ = .bad .notASymbol := by decide
theorem test_word_wrong_length : decode tiny ⟨.symbol, [0#8, 0#8, 0#8]⟩ = .bad .wrongLength := by decide
theorem test_table_words :
    decodeTableWord 8 7 = some .halt ∧ decodeTableWord 8 5 = none ∧
    decodeTableWord 16 0x1B0 = some (.encodeByte .lsbFirst 0xB0#8) ∧
    decodeTableWord 32 0x00118008 = some .s0 ∧
    decodeTableWord 32 0x000D800C = some (.decodeSymbol ⟨.high, 12, .low, 13⟩) := by decide

/-! ### The Pulse Encoder (vectors E1, 2.1, 2.2, 2.3) -/

theorem test_encode_B0_msb :
    encodeByte Config.reference .msbFirst 0xB0#8 =
      [Config.reference.symS1, Config.reference.symS0, Config.reference.symS1, Config.reference.symS1,
        Config.reference.symS0, Config.reference.symS0, Config.reference.symS0, Config.reference.symS0] := by decide
theorem test_encode_B0_words :
    (encodeByte Config.reference .msbFirst 0xB0#8).map PulseSymbol.word =
      [0x00098010, 0x00118008, 0x00098010, 0x00098010, 0x00118008, 0x00118008, 0x00118008, 0x00118008] := by decide
theorem test_encode_B0_lsb :
    decodeBits Config.reference (encodeByte Config.reference .lsbFirst 0xB0#8) =
      some [false, false, false, false, true, true, false, true] := by decide
theorem test_encode_56_lsb :
    decodeBits Config.reference (encodeByte Config.reference .lsbFirst 0x56#8) =
      some [false, true, true, false, true, false, true, false] := by decide
theorem test_bitsel : bitsel .msbFirst 0xB0#8 2 = true ∧ bitsel .lsbFirst 0xB0#8 4 = true ∧
    bitsel .msbFirst 0x01#8 7 = true ∧ bitsel .lsbFirst 0x01#8 7 = false := by decide
theorem test_rev : revByte 0xB0#8 = 0x0D#8 ∧ revByte 0x01#8 = 0x80#8 ∧ revByte 0x12#8 = 0x48#8 := by decide
theorem test_decode_symbol :
    decodeSymbol Config.reference ⟨.high, 16, .low, 17⟩ = some true ∧
    decodeSymbol Config.reference ⟨.high, 8, .low, 17⟩ = some false ∧
    decodeSymbol Config.reference ⟨.low, 0, .low, 0⟩ = none ∧
    decodeSymbol Config.reference ⟨.high, 12, .low, 13⟩ = none := by decide
theorem test_decode_byte_other_order :
    decodeByte Config.reference .lsbFirst (encodeByte Config.reference .msbFirst 0xB0#8) = some 0x0D#8 := by decide
theorem test_decode_byte_with_reset_symbol :
    decodeByte Config.reference .msbFirst
      ((encodeByte Config.reference .msbFirst 0xB0#8).take 7 ++ [Config.reference.symSR]) = none := by decide

/-! ### Tick derivation (vector 2.4) and legality (R9) -/

theorem test_ticks_12_5_ns : tickCount 25 2 400 = 32 ∧ tickCount 25 2 850 = 68 ∧ tickCount 25 2 800 = 64 ∧
    tickCount 25 2 450 = 36 := by decide
theorem test_ticks_100_ns : tickCount 100 1 400 = 4 ∧ tickCount 100 1 850 = 9 ∧ tickCount 100 1 800 = 8 ∧
    tickCount 100 1 450 = 5 := by decide
theorem test_reference_is_derived : Config.reference.withDerivedTicks = Config.reference := by decide
theorem test_1000_ns_is_refused :
    ({ Config.reference with tickNum := 1000 }.withDerivedTicks).legal = false := by decide
theorem test_equal_highs_refused :
    ({ Config.reference with t1h := 8, t1l := 17 } : Config).legal = false := by decide

/-! ### The waveform (vector 2.6) -/

theorem test_trace_of_S1 : ticks [Config.reference.symS1] =
    List.replicate 16 .high ++ List.replicate 9 .low := by decide
theorem test_trace_with_long_reset :
    ticks [Config.reference.symS1, { Config.reference.symSR with d0 := 3, d1 := 4 }] =
      List.replicate 16 .high ++ List.replicate 16 .low := by decide

/-! ### Single steps (vectors 2.5, 2.8; the examples of R132 to R139, R175) -/

/-- R132's example: a frame answered whole is in FB and ENCODE is entered. -/
theorem test_acquire_full :
    ((nextOf (step (drawing { Inputs.idle with srcAnswer := some (.full [0xB0, 0xFF, 0x01]) } (at' .acquire)))).map
      fun t => (t.frame, t.phase, t.acqCount)) = some (some [0xB0, 0xFF, 0x01], .encode, 3) := by decide
/-- Vector 2.8: `src_fail` on the tick of the last byte. -/
theorem test_src_fail_on_last_byte :
    ((nextOf (step (drawing { Inputs.idle with srcFail := true, srcValid := true }
      { at' .acquire with acqCount := 2 }))).map fun t => (t.halted, t.faultCause, t.faultInfo, t.phase)) =
      some (true, .source, 2, .halted) := by decide
/-- Vector 2.8: `Short(0)` with nothing received. -/
theorem test_short_zero :
    ((nextOf (step (drawing { Inputs.idle with srcAnswer := some (.short 0) } (at' .acquire)))).map
      fun t => (t.faultCause, t.faultInfo, t.log.length, t.dout)) =
      some (.source, 0, 0, .low) := by decide
/-- R133's example, byte 0. -/
theorem test_encode_first_window :
    ((nextOf (step { at' .encode with fb := [(0, 0xB0), (1, 0xFF), (2, 0x01)] })).map
      fun t => (t.readPb 0, t.readPb 1, t.readPb 8, t.byteIdx)) =
      some (some tiny.symS1, some tiny.symS0, none, 1) := by decide
/-- R134's example: N = 1 gives `PB[24] = SR`. -/
theorem test_frame_slot : ((nextOf (step (at' .frame))).map fun t => (t.pb, t.phase)) =
    some ([(24, ⟨.low, 0, .low, 0⟩)], .transmit) := by decide
/-- R135's example: the log gains `[S0] x 24 ++ [SR]`. -/
theorem test_transmit_submits : ((nextOf (step (filled (at' .transmit)))).map
    fun t => (t.log, t.txBusy, t.symIdx)) =
    some ([List.replicate 24 tiny.symS0 ++ [tiny.symSR]], true, 0) := by decide
/-- Vector 2.8: `tx_err` in flight. -/
theorem test_tx_err : ((nextOf (step (drawing { Inputs.idle with txErr := true } emitted))).map
    fun t => (t.halted, t.faultCause, t.faultInfo, t.txBusy, t.log.length, t.phase)) =
    some (true, .transmit, 0, false, 1, .halted) := by decide
/-- R137: the first tick of `S0` is High. -/
theorem test_emit_high : ((nextOf (step { filled (at' .transmit) with txBusy := true, ticksLeft := 1 })).map
    fun t => (t.dout, t.trace, t.ticksLeft, t.half)) = some (.high, [.high], 0, .first) := by decide
/-- R29: DOUT is Low as soon as the Low half of `S0` is reached. -/
theorem test_low_half_is_low :
    ((nextOf (step { filled (at' .transmit) with txBusy := true, dout := .high })).map
      fun t => (t.half, t.ticksLeft, t.dout, t.trace)) = some (.second, 2, .low, []) := by decide
/-- R138's example: after the 25th symbol TX_DONE runs and LOOP enters IDLE. -/
theorem test_done : ((nextOf (step emitted)).map fun t => (t.txBusy, t.phase, t.idleCnt, t.dout)) =
    some (false, .idle, 1, .low) := by decide
/-- R139: one tick of the gap. -/
theorem test_idle_tick : ((nextOf (step { at' .idle with idleCnt := 2 })).map fun t => (t.idleCnt, t.phase)) =
    some (1, .idle) := by decide
/-- Vector 2.8: `tx_err` in IDLE is ignored. -/
theorem test_tx_err_in_idle :
    ((nextOf (step (drawing { Inputs.idle with txErr := true } (at' .idle)))).map fun t => (t.phase, t.halted)) =
      some (.acquire, false) := by decide
/-- R176: a byte offered to a halted block is not taken. -/
theorem test_halted_takes_nothing :
    ((nextOf (step (drawing { Inputs.idle with srcValid := true } stopped))).map
      fun t => (t.fb, t.phase, t.faultInfo)) = some ([], .halted, 2) := by decide
/-- Vector 2.8: release with `cfg_ok = 0`. -/
theorem test_release_cfg_fail :
    ((nextOf (step (drawing { Inputs.idle with cfgOk := false } { at' .idle with inReset := true }))).map
      fun t => (t.phase, t.halted, t.faultCause, t.faultInfo, t.dout, t.outputs.srcReady)) =
      some (.halted, true, .config, 0, .low, false) := by decide
/-- A call returns R113's output and clears its slot. -/
theorem test_call_encodeByte :
    ((nextOf (step { at' .idle with call := some ⟨.encodeByte, [0xB0#8, 0x01#8]⟩ })).map
      fun t => (t.result, t.call, t.idleCnt)) =
      some (.symbols [tiny.symS0, tiny.symS0, tiny.symS0, tiny.symS0, tiny.symS1, tiny.symS1, tiny.symS0, tiny.symS1],
        none, 0) := by decide
/-- Scripts P4 and P5 name one line for each read and each transmission. -/
theorem test_script_draws :
    (scriptDraw [.srcShort 2] (at' .acquire)).1.srcAnswer = some (.short 2) ∧
    (scriptDraw [.txErr] emitted).1.txErr = true ∧
    (scriptDraw [.txOk, .srcNever] emitted).2 = [.srcNever] := by decide
/-- A table word placed by withFetchWord is what the next step fetches. -/
theorem test_withFetchWord :
    decode Config.reference (State.reset.withFetchWord 8 3).fetch = .ok .transmit ∧
    decode Config.reference (State.reset.withFetchWord 32 0x00098010).fetch = .ok .s1 ∧
    ((nextOf (step (State.reset.withFetchWord 8 4))).map fun t => t.idleCnt) = some 999 := by decide

/-! ### Witnesses: for every statement with hypotheses, a state that meets them, and one for each of its clauses -/

theorem stepsTo {s t : State} (h : nextOf (step s) = some t) : step s = .next t := by
  cases hs : step s with
  | next u => rw [hs] at h; exact congrArg _ (Option.some.inj h)
  | fault r => rw [hs] at h; cases h
  | refused r => rw [hs] at h; cases h

/-- A step that answers a next state, with a fact about it. -/
theorem stepsWith {s : State} {P : State → Bool} (h : (nextOf (step s)).any P = true) :
    ∃ t, step s = .next t ∧ P t = true := by
  cases hs : step s with
  | next u => rw [hs] at h; exact ⟨u, rfl, h⟩
  | fault r => rw [hs] at h; cases h
  | refused r => rw [hs] at h; cases h

/-- A draw list that is empty disturbs nothing. -/
theorem undisturbed_nil {s : State} (h : s.inputs = []) (n : Nat) : s.undisturbed n := by
  intro d hd; rw [h] at hd; simp at hd

theorem noReset_nil {s : State} (h : s.inputs = []) (n : Nat) : s.noReset n := by
  intro d hd; rw [h] at hd; simp at hd

theorem witness_DecodeEncodeAgree :
    Config.reference.legal = true ∧
    (Instr.decodeSymbol ⟨.high, 32767, .low, 32767⟩).wellFormed Config.reference = true ∧
    Instr.s0.wellFormed Config.reference = true ∧ Instr.s1.wellFormed tiny = true ∧ tiny.legal = true ∧
    Instr.sr.wellFormed tiny = true := by decide

theorem witness_EncodeDecodeAgree : decode tiny ⟨.txStep, [1#8]⟩ = .ok .txDone := by decide

theorem witness_PackedWordLayout :
    (⟨.high, 32767, .high, 32767⟩ : PulseSymbol).d0 < 2 ^ 15 ∧
    (⟨.high, 32767, .high, 32767⟩ : PulseSymbol).d1 < 2 ^ 15 ∧ 2 ^ 32 - 1 < 2 ^ 32 := by decide

theorem witness_DecodeSymbolReturnsBit :
    (at' .idle).cfg.legal = true ∧ (at' .idle).cfg.rst0 ≠ (at' .idle).cfg.t0h ∧
    (at' .idle).cfg.rst0 ≠ (at' .idle).cfg.t1h := by decide

theorem witness_ByteRoundTrip :
    tiny.legal = true ∧ (List.replicate 8 tiny.symSR).length = 8 ∧
    decodeByte tiny .lsbFirst (List.replicate 7 tiny.symS0 ++ [tiny.symS1]) = some 0x80#8 ∧
    (List.replicate 7 tiny.symS0 ++ [tiny.symS1])[7]? = some tiny.symS1 := by decide

theorem witness_BitPropertyOfEncoder :
    tiny.legal = true ∧ (encodeByte tiny .lsbFirst 0x80#8)[7]? = some tiny.symS1 ∧
    (encodeByte tiny .msbFirst 0x80#8)[7]? = some tiny.symS0 := by decide

/-- A whole answer. -/
def answered : State := drawing { Inputs.idle with srcAnswer := some (.full [1, 2, 3]) } (at' .acquire)

theorem witness_AcquireTakesWholeFrame :
    answered.atBoundary .acquire ∧ answered.cur.srcFail = false ∧ answered.cur.srcAnswer = some (.full [1, 2, 3]) ∧
    [1, 2, 3].length = answered.cfg.frameLen := ⟨⟨rfl, rfl, rfl⟩, rfl, rfl, rfl⟩

/-- The third byte of three. -/
def lastByte : State :=
  drawing { Inputs.idle with srcValid := true, srcData := 7 } { at' .acquire with acqCount := 2 }

theorem witness_AcquireTakesOneTick :
    (lastByte.atBoundary .acquire ∧ lastByte.cur.srcFail = false ∧ lastByte.cur.srcAnswer = none ∧
      lastByte.cur.srcValid = true ∧ lastByte.acqCount < lastByte.cfg.frameLen) ∧
    ((at' .acquire).atBoundary .acquire ∧ (at' .acquire).cur.srcFail = false ∧ (at' .acquire).cur.srcAnswer = none ∧
      (at' .acquire).cur.srcValid = false) :=
  ⟨⟨⟨rfl, rfl, rfl⟩, rfl, rfl, rfl, by decide⟩, ⟨rfl, rfl, rfl⟩, rfl, rfl, rfl⟩

/-- A read that ends with two bytes of three, and one that breaks at once. -/
def shortRead : State := drawing { Inputs.idle with srcAnswer := some (.short 2) } (at' .acquire)
def brokenRead : State := drawing { Inputs.idle with srcAnswer := some (.error 0) } (at' .acquire)

theorem witness_FailedReadTakesSourceFault :
    (shortRead.atBoundary .acquire ∧ shortRead.cur.srcFail = false ∧ 2 < shortRead.cfg.frameLen ∧
      shortRead.cur.srcAnswer = some (.short 2)) ∧
    (brokenRead.atBoundary .acquire ∧ brokenRead.cur.srcFail = false ∧ 0 < brokenRead.cfg.frameLen ∧
      brokenRead.cur.srcAnswer = some (.error 0)) :=
  ⟨⟨⟨rfl, rfl, rfl⟩, rfl, by decide, rfl⟩, ⟨rfl, rfl, rfl⟩, rfl, by decide, rfl⟩

def failedTick : State := drawing { Inputs.idle with srcFail := true, srcValid := true } { at' .acquire with acqCount := 2 }

theorem witness_SourceFailureBeatsTransfer : failedTick.atBoundary .acquire ∧ failedTick.cur.srcFail = true :=
  ⟨⟨rfl, rfl, rfl⟩, rfl⟩

/-- ENCODE at its last byte. -/
def lastWindow : State := { filled (at' .encode) with byteIdx := 2 }

theorem witness_EncodeWritesOneWindow :
    lastWindow.atBoundary .encode ∧ lastWindow.byteIdx < lastWindow.cfg.frameLen ∧
    lastWindow.readFb lastWindow.byteIdx = some 0 := ⟨⟨rfl, rfl, rfl⟩, by decide, by decide⟩

theorem witness_FrameWritesResetSymbol : (at' .frame).atBoundary .frame := ⟨rfl, rfl, rfl⟩

theorem witness_TransmitSubmitsWholeBuffer :
    secondSubmit.atBoundary .transmit ∧ secondSubmit.buffer = some zeroBuf ∧ zeroBuf[0]? = some tiny.symS0 :=
  ⟨⟨rfl, rfl, rfl⟩, by decide, by decide⟩

def errorInFlight : State := drawing { Inputs.idle with txErr := true } emitted

theorem witness_TransmitFaultsOnErrorElseWaits :
    (errorInFlight.phase = .transmit ∧ errorInFlight.halted = false ∧ errorInFlight.txBusy = true ∧
      errorInFlight.cur.txErr = true ∧ errorInFlight.txMark ≤ errorInFlight.trace.length) ∧
    (emitted.phase = .transmit ∧ emitted.halted = false ∧ emitted.txBusy = true ∧ emitted.cur.txErr = false) := by
  decide

theorem witness_IdleCountsDownThenAcquires :
    ({ at' .idle with idleCnt := 1 } : State).atBoundary .idle ∧ ({ at' .idle with idleCnt := 1 } : State).idleCnt ≠ 0 ∧
    (at' .idle).atBoundary .idle ∧ (at' .idle).idleCnt = 0 :=
  ⟨⟨rfl, rfl, rfl⟩, by decide, ⟨rfl, rfl, rfl⟩, rfl⟩

theorem witness_HaltChangesNothing : stopped.phase = .halted ∧ stopped.halted = true := by decide

def badRelease : State := drawing { Inputs.idle with cfgOk := false } { at' .acquire with inReset := true }

theorem witness_HaltingIsFaultEntry :
    (badRelease.halted = false ∧ ∃ t, step badRelease = .next t ∧ (t.halted && t.faultCause == .config) = true) ∧
    (shortRead.halted = false ∧ ∃ t, step shortRead = .next t ∧ (t.halted && t.faultCause == .source) = true) ∧
    (errorInFlight.halted = false ∧
      ∃ t, step errorInFlight = .next t ∧ (t.halted && t.faultCause == .transmit) = true) :=
  ⟨⟨rfl, stepsWith (by decide)⟩, ⟨rfl, stepsWith (by decide)⟩, rfl, stepsWith (by decide)⟩

/-- TX at the last data symbol, with ticks left or not, in either half. -/
def driving (h : Half) (n : Nat) : State :=
  { filled (at' .transmit) with txBusy := true, symIdx := 23, half := h, ticksLeft := n }

theorem witness_TxEmitDrivesThePresentHalf :
    (∀ h n, (driving h n).txBusy = true ∧ (driving h n).symIdx ≤ (driving h n).cfg.lastSlot ∧
      (driving h n).readPb (driving h n).symIdx = some tiny.symS0) ∧
    (driving .first 1).ticksLeft ≠ 0 ∧ (driving .first 1).half = .first ∧
    (driving .second 2).ticksLeft ≠ 0 ∧ (driving .second 2).half = .second ∧
    (driving .first 0).ticksLeft = 0 ∧ (driving .second 0).ticksLeft = 0 ∧
    (driving .second 0).readPb 24 = some tiny.symSR :=
  ⟨fun _ _ => ⟨rfl, by show 23 ≤ tiny.lastSlot; decide, by
    show Memory.read (Memory.writeSpan [] 0 zeroBuf) 23 = some tiny.symS0; decide⟩, by decide⟩

/-- TX at the reset symbol, which no symbol follows: the last clause of two statements. -/
def atReset (h : Half) : State := { driving h 0 with symIdx := 24 }

theorem witness_LastSymbolHasNoNext :
    (∀ h, (atReset h).running ∧ (atReset h).txBusy = true ∧ (atReset h).halted = false ∧
      (atReset h).symIdx ≤ (atReset h).cfg.lastSlot ∧ (atReset h).readPb 24 = some tiny.symSR ∧
      (atReset h).ticksLeft = tiny.symSR.d0 ∧ (atReset h).readPb 25 = none) ∧
    (atReset .first).undisturbed (tiny.symSR.d0 + tiny.symSR.d1 + 2) :=
  ⟨fun _ => ⟨⟨by show tiny.legal = true; decide, rfl, rfl⟩, rfl, rfl, by show 24 ≤ tiny.lastSlot; decide,
    by show Memory.read (Memory.writeSpan [] 0 zeroBuf) 24 = some tiny.symSR; decide, rfl,
    by show Memory.read (Memory.writeSpan [] 0 zeroBuf) 25 = none; decide⟩, undisturbed_nil rfl _⟩

theorem witness_TxDoneCompletesTheTransmission :
    emitted.txBusy = true ∧ emitted.symIdx = emitted.cfg.lastSlot + 1 ∧ emitted.phase = .transmit := by decide

theorem witness_OperationsStopByName :
    ((at' .encode).atBoundary .encode ∧ (at' .encode).byteIdx < (at' .encode).cfg.frameLen ∧
      (at' .encode).readFb (at' .encode).byteIdx = none) ∧
    (({ at' .encode with byteIdx := 3 } : State).atBoundary .encode ∧
      ({ at' .encode with byteIdx := 3 } : State).cfg.frameLen ≤ 3) ∧
    ((at' .transmit).atBoundary .transmit ∧ (at' .transmit).buffer = none) ∧
    (({ at' .transmit with txBusy := true, symIdx := 24 } : State).txBusy = true ∧
      24 ≤ (at' .transmit).cfg.lastSlot ∧ (at' .transmit).readPb 24 = none) ∧
    (({ lastByte with acqCount := 3 } : State).atBoundary .acquire ∧ lastByte.cur.srcFail = false ∧
      lastByte.cur.srcAnswer = none ∧ lastByte.cur.srcValid = true ∧ lastByte.cfg.frameLen ≤ 3) ∧
    (¬ emitted.atBoundary .acquire ∧ ¬ emitted.atBoundary .encode ∧ ¬ emitted.atBoundary .frame ∧
      ¬ emitted.atBoundary .idle) ∧
    (¬ (stopped.phase = .transmit ∧ stopped.halted = false) ∧ ¬ (emitted.phase = .halted ∧ emitted.halted = true) ∧
      ¬ (emitted.txBusy = true ∧ emitted.symIdx ≤ emitted.cfg.lastSlot) ∧
      ¬ ((driving .first 1).txBusy = true ∧ (driving .first 1).symIdx = (driving .first 1).cfg.bufferLen)) ∧
    (¬ (SrcAnswer.short 3).allowed tiny ∧ ¬ (SrcAnswer.error 3).allowed tiny ∧
      ¬ (SrcAnswer.full [1, 2, 3, 4]).allowed tiny) := by
  refine ⟨⟨⟨rfl, rfl, rfl⟩, by decide, by decide⟩, ⟨⟨rfl, rfl, rfl⟩, by decide⟩, ⟨⟨rfl, rfl, rfl⟩, by decide⟩,
    by decide, ⟨⟨rfl, rfl, rfl⟩, by decide⟩, ?_, by decide, ?_⟩
  · refine ⟨fun h => ?_, fun h => ?_, fun h => ?_, fun h => ?_⟩ <;> exact absurd h.1 (by decide)
  · simp only [SrcAnswer.allowed]; decide

/-- A call waits. -/
def calling : State := { at' .idle with call := some ⟨.symbol, [0x01#8, 0x80#8, 0x02#8, 0x00#8]⟩ }

theorem witness_StepRunsTheDecodedInstruction :
    (calling.cfg.legal = true ∧ decode calling.cfg calling.fetch = .ok .s0 ∧ calling.callPending = true) ∧
    (emitted.cfg.legal = true ∧ decode emitted.cfg emitted.fetch = .ok .txDone ∧ emitted.callPending = false ∧
      emitted.cur.rst = false ∧ emitted.inReset = false ∧ emitted.held = false) ∧
    (stopped.cfg.legal = true ∧ decode stopped.cfg stopped.fetch = .ok .halt ∧ stopped.halted = true ∧
      stopped.cur.rst = false ∧ stopped.inReset = false ∧ stopped.held = false) := by decide

/-- A call of a word that is no instruction waits. -/
def callingBad : State := { at' .idle with call := some ⟨.symbol, [0x0C#8, 0x80#8, 0x0D#8, 0x00#8]⟩ }

theorem witness_StepRefusesAnUndecodableWord :
    callingBad.cfg.legal = true ∧ callingBad.callPending = true ∧
    decode callingBad.cfg callingBad.fetch = .bad .notASymbol := by decide

theorem witness_StateSelectsTheOperation :
    stopped.callPending = false ∧ emitted.callPending = false ∧ errorInFlight.callPending = false ∧
    (driving .first 1).callPending = false ∧ (at' .frame).callPending = false := by decide

def held (s : State) : State := drawing { Inputs.idle with hold := true } s

theorem witness_HoldLengthensAWait :
    ((held emitted).cfg.legal = true ∧ (held emitted).callPending = false ∧ (held emitted).cur.rst = false ∧
      (held emitted).inReset = false ∧ (held emitted).cur.hold = true ∧ (held emitted).halted = false ∧
      (held emitted).txBusy = true ∧ (held emitted).cur.txErr = false ∧
      (held emitted).symIdx = (held emitted).cfg.bufferLen) ∧
    (({ driving .first 1 with symIdx := 0 } : State).readPb 0 = some tiny.symS0 ∧ tiny.symS0.d0 = 1 ∧
      (driving .first 1).txBusy = true) ∧
    (∀ p : Phase, (held (at' p)).txBusy = false ∧ (held (at' p)).halted = false ∧ (held (at' p)).cur.hold = true ∧
      (held (at' p)).phase = p ∧ (held (at' p)).idleCnt = 0) :=
  ⟨by decide, by decide, fun _ => ⟨rfl, rfl, rfl, rfl, rfl⟩⟩

def resetting : State := drawing { Inputs.idle with rst := true } emitted

theorem witness_ResetTickSetsEveryRegister :
    resetting.cfg.legal = true ∧ resetting.callPending = false ∧ resetting.cur.rst = true := by decide

def goodRelease : State := drawing { Inputs.idle with cfgBitOrder := .lsbFirst } { at' .acquire with inReset := true }

theorem witness_ReleaseSamplesConfiguration :
    (goodRelease.cfg.legal = true ∧ goodRelease.callPending = false ∧ goodRelease.cur.rst = false ∧
      goodRelease.inReset = true ∧ goodRelease.cur.cfgOk = true) ∧
    (badRelease.cfg.legal = true ∧ badRelease.callPending = false ∧ badRelease.cur.rst = false ∧
      badRelease.inReset = true ∧ badRelease.cur.cfgOk = false) := by decide

theorem witness_IllegalConfigurationsRefused :
    ({ tiny with t1h := 1 } : Config).t1h = tiny.t0h ∧ 2 ^ tiny.durW ≤ ({ tiny with t0l := 4 } : Config).t0l ∧
    ({ tiny with t1l := 0 } : Config).t1l = 0 ∧ ({ tiny with ledCount := 0 } : Config).ledCount = 0 := by decide

theorem witness_InputsOutsideTheirWindowsIgnored :
    emitted.callPending = false ∧ State.samplesSource { emitted with inputs := [Inputs.idle] } = false ∧
    (at' .idle).callPending = false ∧ State.samplesTxErr { at' .idle with inputs := [Inputs.idle] } = false ∧
    State.samplesConfig { at' .idle with inputs := [Inputs.idle] } = false := by decide

theorem witness_ConfigurationIsStatic :
    ∃ t, step goodRelease = .next t ∧ decide (t.bitOrderQ ≠ goodRelease.bitOrderQ) = true := stepsWith (by decide)

theorem witness_PhasesFollowTheLoop :
    (at' .frame).cur.rst = false ∧ (at' .frame).inReset = false ∧
    ∃ t, step (at' .frame) = .next t ∧ (t.phase == .transmit) = true := ⟨rfl, rfl, stepsWith (by decide)⟩

theorem witness_BuffersWrittenOnlyInTheirPhases :
    emitted.cur.rst = false ∧ emitted.inReset = false ∧ emitted.txBusy = true ∧ emitted.phase ≠ .encode ∧
    emitted.phase ≠ .frame ∧ ∃ t, step emitted = .next t ∧ (t.pb == emitted.pb) = true :=
  ⟨rfl, rfl, rfl, by decide, by decide, stepsWith (by decide)⟩

theorem witness_BusyFlagChangesOnlyAsStated :
    (secondSubmit.txBusy = false ∧ ∃ t, step secondSubmit = .next t ∧ t.txBusy = true) ∧
    (emitted.txBusy = true ∧ ∃ t, step emitted = .next t ∧ (!t.txBusy) = true) :=
  ⟨⟨rfl, stepsWith (by decide)⟩, rfl, stepsWith (by decide)⟩

/-! ### Safe states, for the statements that start from one -/

theorem buffer_unique {s : State} {b c : List PulseSymbol} (h : s.buffer = some b) (h' : s.buffer = some c) : b = c :=
  Option.some.inj (h.symm.trans h')

theorem emitted_buffer : emitted.buffer = some zeroBuf := by decide

theorem emitted_shape : Shape emitted := by constructor <;> decide

theorem emitted_contents : Contents emitted where
  acquired := fun h => absurd h (by decide)
  encoded := fun h => absurd h (by decide)
  built := fun _ => ⟨[0, 0, 0], by decide, emitted_buffer⟩
  borrowed := fun _ => by decide
  logged := fun e he => ⟨[0, 0, 0], rfl, List.mem_singleton.mp he⟩

theorem emitted_line : Line emitted where
  quiet := fun h => absurd h (by decide)
  position := fun _ p h => absurd (show emitted.readPb 25 = some p from h) (by
    rw [show emitted.readPb 25 = none by decide]; exact fun h => nomatch h)
  drivenHigh := fun _ h => absurd h (by decide)
  emission := fun _ => ⟨by decide, fun buf h => ⟨0, 0, by
    rw [← buffer_unique emitted_buffer h]; decide, fun h => absurd rfl h⟩⟩
  lowTime := fun _ _ _ h => absurd h (by decide)

theorem emitted_safe : Safe emitted := ⟨emitted_shape, emitted_contents, emitted_line⟩

theorem secondSubmit_safe : Safe secondSubmit where
  shape := by constructor <;> decide
  contents :=
    { acquired := fun h => absurd h (by decide)
      encoded := fun h => absurd h (by decide)
      built := fun _ => ⟨[0, 0, 0], by decide, by decide⟩
      borrowed := fun h => absurd h (by decide)
      logged := fun e he => ⟨[0, 0, 0], rfl, List.mem_singleton.mp he⟩ }
  line :=
    { quiet := fun _ => by decide
      position := fun h => absurd h (by decide)
      drivenHigh := fun h => absurd h (by decide)
      emission := fun h => absurd h (by decide)
      lowTime := fun buf h _ _ => by
        rw [← Option.some.inj (show some zeroBuf = some buf from h)]; decide }

/-- The first submit after reset, of the same frame. -/
def firstSubmit : State := { filled (at' .transmit) with acqCount := 3, byteIdx := 3 }

theorem firstSubmit_safe : Safe firstSubmit where
  shape := by constructor <;> decide
  contents :=
    { acquired := fun h => absurd h (by decide)
      encoded := fun h => absurd h (by decide)
      built := fun _ => ⟨[0, 0, 0], by decide, by decide⟩
      borrowed := fun h => absurd h (by decide)
      logged := fun _ he => nomatch he }
  line :=
    { quiet := fun _ => by decide
      position := fun h => absurd h (by decide)
      drivenHigh := fun h => absurd h (by decide)
      emission := fun h => absurd h (by decide)
      lowTime := fun _ h => nomatch h }

theorem witness_StatusOutputsShowTheState :
    (at' .acquire).outputs.srcReady = true ∧ (at' .acquire).phase = .acquire ∧ Shape (at' .acquire) ∧
    (at' .acquire).inReset = false ∧ (at' .acquire).cur.rst = false :=
  ⟨by decide, rfl, by constructor <;> decide, rfl, rfl⟩

/-- Every case of the codes, each by a state. -/
theorem test_codes :
    ([.acquire, .encode, .frame, .transmit, .idle, .halted].map fun p => (at' p).outputs.phase.toNat) =
      [0, 1, 2, 3, 4, 7] ∧
    ([.none, .config, .source, .transmit].map fun c => ({ stopped with faultCause := c } : State).outputs.faultCause.toNat) =
      [0, 1, 2, 3] ∧
    stopped.controlRegisters = [0, 7, 0, 1, 2, 2] ∧
    ({ emitted with bitOrderQ := .lsbFirst } : State).controlRegisters = [1, 3, 1, 0, 0, 0] := by decide

theorem witness_ResetIsSafe : Config.reference.legal = true ∧ tiny.legal = true := by decide

theorem witness_StepKeepsShape : Shape emitted ∧ ∃ t, step emitted = .next t ∧ (t.phase == .idle) = true :=
  ⟨emitted_shape, stepsWith (by decide)⟩

theorem witness_StepKeepsContents :
    Shape emitted ∧ Contents emitted ∧ ∃ t, step emitted = .next t ∧ (t.phase == .idle) = true :=
  ⟨emitted_shape, emitted_contents, stepsWith (by decide)⟩

theorem witness_StepKeepsLine :
    Shape emitted ∧ Contents emitted ∧ Line emitted ∧ ∃ t, step emitted = .next t ∧ (t.phase == .idle) = true :=
  ⟨emitted_shape, emitted_contents, emitted_line, stepsWith (by decide)⟩

theorem witness_SafeStatesStep :
    Safe emitted ∧ emitted.callPending = false ∧ ∀ a, emitted.cur.srcAnswer = some a → a.allowed emitted.cfg :=
  ⟨emitted_safe, by decide, fun _ h => nomatch h⟩

theorem witness_LogEntriesAreFrames :
    Safe emitted ∧ zeroBuf ∈ emitted.log ∧ 23 < emitted.cfg.ledCount * 24 ∧ zeroBuf[23]? = some tiny.symS0 :=
  ⟨emitted_safe, by decide, by decide, by decide⟩

theorem witness_BufferImmutableInFlight :
    Safe emitted ∧ emitted.txBusy = true ∧ emitted.cur.rst = false ∧ emitted.inReset = false ∧
    ∃ t, step emitted = .next t ∧ (t.phase == .idle) = true :=
  ⟨emitted_safe, rfl, rfl, rfl, stepsWith (by decide)⟩

theorem witness_EqualFramesGiveEqualEntries :
    Safe firstSubmit ∧ Safe secondSubmit ∧ firstSubmit.cfg = secondSubmit.cfg ∧
    firstSubmit.bitOrderQ = secondSubmit.bitOrderQ ∧ firstSubmit.frame = secondSubmit.frame ∧
    firstSubmit.atBoundary .transmit ∧ secondSubmit.atBoundary .transmit ∧
    (nextOf (exec .transmit firstSubmit)).isSome = true ∧ (nextOf (exec .transmit secondSubmit)).isSome = true :=
  ⟨firstSubmit_safe, secondSubmit_safe, rfl, rfl, rfl, ⟨rfl, rfl, rfl⟩, ⟨rfl, rfl, rfl⟩, by decide, by decide⟩

theorem witness_CompletedTraceIsTicksOfBuffer :
    Safe emitted ∧ (nextOf (exec .txDone emitted)).isSome = true := ⟨emitted_safe, by decide⟩

theorem witness_SubmitComesAfterTheLowTime :
    Safe secondSubmit ∧ secondSubmit.log.getLast? = some zeroBuf ∧
    ∃ t, step secondSubmit = .next t ∧ decide (secondSubmit.log.length < t.log.length) = true :=
  ⟨secondSubmit_safe, by decide, stepsWith (by decide)⟩

theorem witness_FrameRoundTrip :
    tiny.legal = true ∧ ([0xB0, 0xFF, 0x01] : List Byte).length = tiny.frameLen ∧
    ∃ g : List Byte, g.length = tiny.frameLen ∧
      buildPb tiny .msbFirst [0xB0, 0xFF, 0x01] = buildPb tiny .msbFirst g := ⟨by decide, by decide, _, by decide, rfl⟩

theorem witness_ZeroFrameIsAllZeroSymbols : tiny.ledCount = 1 ∧ ([0, 0, 0] : List Byte).length = tiny.frameLen := by
  decide

theorem witness_TraceLengthOfAFrame : tiny.rst0 = 0 ∧ tiny.rst1 = 0 := by decide

theorem witness_OneRisingEdgePerBit :
    tiny.legal = true ∧ ([0xB0, 0xFF, 0x01] : List Byte).length = tiny.frameLen := by decide

theorem witness_TickCountRoundsToNearest : 0 < 25 ∧ 0 < 2 := by decide

theorem witness_EncodePhaseFillsTheBuffer :
    (filled (at' .encode)).running ∧ (filled (at' .encode)).atBoundary .encode ∧ (filled (at' .encode)).byteIdx = 0 ∧
    (filled (at' .encode)).frame = some [0, 0, 0] ∧ (filled (at' .encode)).undisturbed tiny.frameLen :=
  ⟨⟨by decide, rfl, rfl⟩, ⟨rfl, rfl, rfl⟩, rfl, by decide, undisturbed_nil rfl _⟩

theorem witness_SymbolIsDrivenForItsExactTicks :
    (driving .first 1).running ∧ (driving .first 1).halted = false ∧ (driving .first 1).txBusy = true ∧
    (driving .first 1).symIdx ≤ (driving .first 1).cfg.lastSlot ∧
    (driving .first 1).readPb (driving .first 1).symIdx = some tiny.symS0 ∧ (driving .first 1).half = .first ∧
    (driving .first 1).ticksLeft = tiny.symS0.d0 ∧ (driving .first 1).undisturbed (tiny.symS0.d0 + tiny.symS0.d1 + 2) :=
  ⟨⟨by decide, rfl, rfl⟩, rfl, rfl, by decide, by decide, rfl, by decide, undisturbed_nil rfl _⟩

theorem witness_TransmissionRunsToCompletion :
    secondSubmit.running ∧ secondSubmit.atBoundary .transmit ∧ secondSubmit.buffer = some zeroBuf ∧
    secondSubmit.undisturbed (transmissionSteps zeroBuf) :=
  ⟨⟨by decide, rfl, rfl⟩, ⟨rfl, rfl, rfl⟩, by decide, undisturbed_nil rfl _⟩

theorem witness_IdleLastsItsCount :
    ({ at' .idle with idleCnt := 1 } : State).running ∧ ({ at' .idle with idleCnt := 1 } : State).atBoundary .idle ∧
    ({ at' .idle with idleCnt := 1 } : State).undisturbed 2 :=
  ⟨⟨by decide, rfl, rfl⟩, ⟨rfl, rfl, rfl⟩, undisturbed_nil rfl _⟩

theorem answered_quiet (n : Nat) : answered.undisturbed n := by
  intro d hd
  rw [List.mem_singleton.mp (List.mem_of_mem_take hd)]; decide

theorem witness_OneIterationOfTheLoop :
    answered.running ∧ answered.atBoundary .acquire ∧ answered.dout = .low ∧ answered.cur.srcFail = false ∧
    answered.cur.srcAnswer = some (.full [1, 2, 3]) ∧ [1, 2, 3].length = answered.cfg.frameLen ∧
    ∀ n, answered.undisturbed n :=
  ⟨⟨by decide, rfl, rfl⟩, ⟨rfl, rfl, rfl⟩, rfl, rfl, rfl, rfl, answered_quiet⟩

theorem witness_HaltedIsAbsorbing :
    stopped.running ∧ stopped.phase = .halted ∧ stopped.halted = true ∧ stopped.noReset 5 :=
  ⟨⟨by decide, rfl, rfl⟩, rfl, rfl, noReset_nil rfl _⟩

theorem noReset_drawing {d : Inputs} (h : d.rst = false) (s : State) (n : Nat) : (drawing d s).noReset n := by
  intro e he; rw [List.mem_singleton.mp (List.mem_of_mem_take he)]; exact h

theorem witness_NoTransmissionAfterFailedAcquire :
    (shortRead.running ∧ shortRead.atBoundary .acquire ∧ shortRead.cur.srcFail = false ∧ 2 < shortRead.cfg.frameLen ∧
      shortRead.cur.srcAnswer = some (.short 2) ∧ shortRead.noReset 5) ∧
    (brokenRead.running ∧ brokenRead.atBoundary .acquire ∧ brokenRead.cur.srcFail = false ∧
      0 < brokenRead.cfg.frameLen ∧ brokenRead.cur.srcAnswer = some (.error 0) ∧ brokenRead.noReset 5) ∧
    (failedTick.running ∧ failedTick.atBoundary .acquire ∧ failedTick.cur.srcFail = true ∧ 2 = failedTick.acqCount ∧
      failedTick.noReset 5) :=
  ⟨⟨⟨by decide, rfl, rfl⟩, ⟨rfl, rfl, rfl⟩, rfl, by decide, rfl, noReset_drawing rfl _ _⟩,
    ⟨⟨by decide, rfl, rfl⟩, ⟨rfl, rfl, rfl⟩, rfl, by decide, rfl, noReset_drawing rfl _ _⟩,
    ⟨by decide, rfl, rfl⟩, ⟨rfl, rfl, rfl⟩, rfl, rfl, noReset_drawing rfl _ _⟩

end Sys2Proof.Tests
end

/-! PROOFS. The scope of the model: which configurations it accepts, and that its configuration is static. -/

namespace Sys2Proof.Machine

/-! ### Illegal configurations (R9) -/

/-- A step of an instance outside R8 or R9 (a), (c), (d) is refused, whatever else the state holds. -/
theorem step_of_illegal {s : State} (h : s.cfg.legal = false) : step s = .refused .illegalConfiguration := by
  simp [step, h]

/-- Settles O32: each of the ways to break R9 contradicts one of the fields a legal configuration guarantees. -/
theorem illegalConfigurationsRefused : Obligations.IllegalConfigurationsRefused := by
  intro s hbroken
  refine step_of_illegal (Bool.eq_false_iff.mpr fun hlegal => ?_)
  obtain ⟨hcount, -, -, -, -, ht0h, ht0l, ht1h, ht1l, -, -, hdistinct⟩ := (legal_iff s.cfg).mp hlegal
  omega

/-! ### The configuration is static (R10, R28) -/

/-- The parameters and the bit order of `t` are those of `s`. -/
def State.SameConfiguration (s t : State) : Prop := t.cfg = s.cfg ∧ t.bitOrderQ = s.bitOrderQ

theorem execAcquire_sameConfiguration {s t : State} (h : execAcquire s = .next t) : s.SameConfiguration t := by
  obtain ⟨-, ⟨-, rfl⟩ | ⟨-, ⟨d, -, -, rfl⟩ | ⟨k, -, -, rfl⟩ | ⟨-, -, -, rfl⟩ | ⟨-, -, rfl⟩⟩⟩ := execAcquire_cases h <;>
    exact ⟨rfl, rfl⟩

theorem execEncode_sameConfiguration {s t : State} (h : execEncode s = .next t) : s.SameConfiguration t := by
  obtain ⟨-, -, b, -, rfl⟩ := execEncode_cases h
  exact ⟨rfl, rfl⟩

theorem execFrame_sameConfiguration {s t : State} (h : execFrame s = .next t) : s.SameConfiguration t := by
  obtain ⟨-, rfl⟩ := execFrame_cases h
  exact ⟨rfl, rfl⟩

theorem execTransmit_sameConfiguration {s t : State} (h : execTransmit s = .next t) : s.SameConfiguration t := by
  obtain ⟨-, ⟨-, -, rfl⟩ | ⟨-, -, rfl⟩ | ⟨-, buf, -, rfl⟩⟩ := execTransmit_cases h <;> exact ⟨rfl, rfl⟩

theorem execIdle_sameConfiguration {s t : State} (h : execIdle s = .next t) : s.SameConfiguration t := by
  obtain ⟨-, ⟨-, rfl⟩ | ⟨-, rfl⟩⟩ := execIdle_cases h <;> exact ⟨rfl, rfl⟩

theorem execHalt_sameConfiguration {s t : State} (h : execHalt s = .next t) : s.SameConfiguration t := by
  obtain ⟨-, rfl⟩ := execHalt_cases h
  exact ⟨rfl, rfl⟩

theorem execTxEmit_sameConfiguration {s t : State} (h : execTxEmit s = .next t) : s.SameConfiguration t := by
  obtain ⟨-, -, p, -, rfl⟩ := execTxEmit_cases h
  obtain ⟨-, e⟩ | ⟨-, -, e⟩ | ⟨-, -, e⟩ := emitSymbol_cases p s <;> rw [e] <;> exact ⟨rfl, rfl⟩

theorem execTxDone_sameConfiguration {s t : State} (h : execTxDone s = .next t) : s.SameConfiguration t := by
  obtain ⟨-, -, rfl⟩ := execTxDone_cases h
  exact ⟨by simp, by simp⟩

/-- No instruction writes a parameter or BIT_ORDER_Q: the functions and symbols only deliver a result. -/
theorem exec_sameConfiguration {i : Instr} {s t : State} (h : exec i s = .next t) : s.SameConfiguration t := by
  cases i with
  | acquire => exact execAcquire_sameConfiguration h
  | encode => exact execEncode_sameConfiguration h
  | frame => exact execFrame_sameConfiguration h
  | transmit => exact execTransmit_sameConfiguration h
  | idle => exact execIdle_sameConfiguration h
  | halt => exact execHalt_sameConfiguration h
  | txEmit => exact execTxEmit_sameConfiguration h
  | txDone => exact execTxDone_sameConfiguration h
  | encodeByte o b => cases h; exact ⟨rfl, rfl⟩
  | decodeSymbol p => cases h; exact ⟨rfl, rfl⟩
  | s0 => cases h; exact ⟨rfl, rfl⟩
  | s1 => cases h; exact ⟨rfl, rfl⟩
  | sr => cases h; exact ⟨rfl, rfl⟩

/-- What the step adds after an instruction touches only the trace, the draws and the call slot. -/
theorem settle_sameConfiguration (s t : State) : t.SameConfiguration (s.settle t) := by
  unfold State.settle
  split_ifs <;> exact ⟨rfl, rfl⟩

/-- Settles O34: of all a step can do, only the release of reset loads BIT_ORDER_Q, and nothing writes a parameter. -/
theorem configurationIsStatic : Obligations.ConfigurationIsStatic := by
  intro s t h
  obtain ⟨-, ⟨-, r, rfl⟩ | ⟨-, ⟨-, rfl⟩ | ⟨hrst, hin, rfl⟩ | ⟨-, -, -, rfl⟩ | ⟨-, -, -, u, hu, rfl⟩⟩⟩ := step_cases h
  · exact ⟨rfl, absurd rfl⟩
  · exact ⟨rfl, absurd rfl⟩
  · exact ⟨by simp, fun _ => ⟨hin, hrst, by simp⟩⟩
  · exact ⟨rfl, absurd rfl⟩
  · obtain ⟨hcfg, horder⟩ := exec_sameConfiguration hu
    obtain ⟨hcfg', horder'⟩ := settle_sameConfiguration s u
    exact ⟨hcfg'.trans hcfg, absurd (horder'.trans horder)⟩

end Sys2Proof.Machine

/-! PROOFS. The registers stay in range: every step keeps `Shape`, one lemma per update of the state. -/

namespace Sys2Proof.Machine

section Shape

variable {s t : State}

theorem Shape.pop (h : Shape s) : Shape s.pop := h.congr rfl
theorem Shape.tick (h : Shape s) : Shape s.tick := h.congr rfl

theorem Shape.settle (h : Shape t) (s : State) : Shape (s.settle t) := by
  unfold State.settle
  split_ifs
  · exact h.congr rfl
  · exact h.tick.pop
  · exact h.pop

/-! ### Reset -/

theorem shape_holdReset (hl : s.cfg.legal = true) : Shape s.holdReset where
  legal := hl
  fbForm := Memory.wf_nil _
  pbForm := Memory.wf_nil _
  pbFits _ he := nomatch he
  haltedPhase := by simp
  causeHalted := by simp
  infoBound := Nat.zero_le _
  infoSource _ := rfl
  busyPhase hb := nomatch hb
  acqBound := Nat.zero_le _
  acqOpen _ := frameLen_pos hl
  byteBound := Nat.zero_le _
  byteOpen hp := nomatch hp
  byteDone hp := nomatch hp
  symBound := Nat.zero_le _
  idleBound := Nat.zero_le _
  ticksBound := Nat.two_pow_pos _

theorem Shape.raiseFault (h : Shape s) {c : Cause} (hc : c ≠ .none) : Shape (s.raiseFault c) :=
  { h with
    haltedPhase := by simp
    causeHalted := by simpa using hc
    infoBound := by rw [raiseFault_faultInfo]; split_ifs <;> [exact h.acqBound; exact Nat.zero_le _]
    infoSource := fun hc => if_neg hc
    busyPhase := fun hb => nomatch hb
    acqOpen := fun hp => nomatch hp
    byteOpen := fun hp => nomatch hp
    byteDone := fun hp => nomatch hp }

theorem shape_releaseReset (hl : s.cfg.legal = true) (ok : Bool) (o : BitOrder) : Shape (s.releaseReset ok o) := by
  have h : Shape { s.holdReset with inReset := false, bitOrderQ := o } := (shape_holdReset hl).congr rfl
  cases ok with
  | true => exact h
  | false => exact h.raiseFault (by decide)

/-! ### The phases of LOOP -/

theorem Shape.failAcquire (h : Shape s) {k : Nat} (hk : k < s.cfg.frameLen) : Shape (s.failAcquire k) := by
  have hs : Shape { s with acqCount := k, fb := freeFrame s.cfg s.freeCount, freeCount := s.freeCount + 1 } :=
    { h with
      fbForm := freeFrame_wf _ _
      acqBound := hk.le
      acqOpen := fun _ => hk }
  exact hs.raiseFault (by decide)

theorem Shape.takeFrame (h : Shape s) (hh : s.halted = false) (hb : s.txBusy = false) {d : List Byte}
    (hd : d.length = s.cfg.frameLen) : Shape (s.takeFrame d) :=
  { h with
    fbForm := Memory.wf_writeSpan d h.fbForm (by rw [Nat.zero_add]; exact hd.le)
    haltedPhase := by simp [hh]
    busyPhase := fun hb' => nomatch hb.symm.trans hb'
    acqBound := le_rfl
    acqOpen := fun hp => nomatch hp
    byteBound := Nat.zero_le _
    byteOpen := fun _ => frameLen_pos h.legal
    byteDone := fun hp => nomatch hp }

theorem Shape.takeByte (h : Shape s) (hp : s.phase = .acquire) (hh : s.halted = false) (hb : s.txBusy = false)
    (ha : s.acqCount < s.cfg.frameLen) (b : Byte) : Shape (s.takeByte b) :=
  have hpos := frameLen_pos h.legal
  { h with
    fbForm := Memory.wf_write b h.fbForm ha
    haltedPhase := by rw [takeByte_phase, takeByte_halted, hh, hp]; split_ifs <;> decide
    busyPhase := fun hb' => nomatch hb.symm.trans hb'
    acqBound := ha
    acqOpen := by
      rw [takeByte_phase, takeByte_acqCount, takeByte_cfg]
      split_ifs with hlast
      · exact fun hp => nomatch hp
      · omega
    byteBound := by rw [takeByte_byteIdx]; split_ifs <;> [exact Nat.zero_le _; exact h.byteBound]
    byteOpen := by rw [takeByte_phase, hp, takeByte_byteIdx]; split_ifs <;> simp [hpos]
    byteDone := by rw [takeByte_phase, hp]; split_ifs <;> simp }

theorem encodeByte_fits {c : Config} (hl : c.legal = true) {o : BitOrder} {b : Byte} {p : PulseSymbol}
    (hp : p ∈ encodeByte c o b) : p.d0 < 2 ^ c.durW ∧ p.d1 < 2 ^ c.durW :=
  sym_fits hl ((mem_encodeByte hp).imp id .inl)

theorem Shape.encodeWindow (h : Shape s) (hp : s.phase = .encode) (hh : s.halted = false) (hb : s.txBusy = false)
    (hi : s.byteIdx < s.cfg.frameLen) (b : Byte) : Shape (s.encodeWindow b) :=
  have hspan : 8 * s.byteIdx + (encodeByte s.cfg s.bitOrderQ b).length ≤ s.cfg.bufferLen := by
    rw [encodeByte_length]; unfold Config.frameLen at hi; unfold Config.bufferLen; omega
  { h with
    pbForm := Memory.wf_writeSpan _ h.pbForm hspan
    pbFits := fun e he => (Memory.mem_writeSpan _ he).elim (encodeByte_fits h.legal) (h.pbFits e)
    haltedPhase := by rw [encodeWindow_phase, encodeWindow_halted, hh, hp]; split_ifs <;> decide
    busyPhase := fun hb' => nomatch hb.symm.trans hb'
    acqOpen := by rw [encodeWindow_phase, hp]; split_ifs <;> simp
    byteBound := hi
    byteOpen := by
      rw [encodeWindow_phase, encodeWindow_byteIdx, encodeWindow_cfg]
      split_ifs with hlast
      · exact fun hp => nomatch hp
      · omega
    byteDone := by
      rw [encodeWindow_phase, encodeWindow_byteIdx, encodeWindow_cfg, hp]
      split_ifs with hlast
      · exact fun _ => hlast
      · exact fun hp => nomatch hp }

theorem Shape.closeFrame (h : Shape s) (hh : s.halted = false) : Shape s.closeFrame :=
  { h with
    pbForm := Memory.wf_write _ h.pbForm (Nat.lt_succ_self _)
    pbFits := fun e he => (Memory.mem_write he).elim
      (fun heq => heq ▸ sym_fits h.legal (.inr (.inr rfl))) (h.pbFits e)
    haltedPhase := by simp [hh]
    busyPhase := fun _ => rfl
    acqOpen := fun hp => nomatch hp
    byteOpen := fun hp => nomatch hp
    byteDone := fun hp => nomatch hp }

theorem Shape.submit (h : Shape s) (hp : s.phase = .transmit) (buf : List PulseSymbol) : Shape (s.submit buf) :=
  { h with
    busyPhase := fun _ => hp
    symBound := Nat.zero_le _
    ticksBound := h.firstTicks 0 }

theorem Shape.failTransmission (h : Shape s) : Shape s.failTransmission := by
  have hs : Shape { s with
      trace := s.trace.take s.txMark ++ Config.freeTrace s.freeCount, freeCount := s.freeCount + 1 } := h.congr rfl
  exact hs.raiseFault (by decide)

theorem Shape.enterIdle (h : Shape s) (hh : s.halted = false) (hb : s.txBusy = false) : Shape s.enterIdle :=
  { h with
    haltedPhase := by simp [hh]
    busyPhase := fun hb' => nomatch hb.symm.trans hb'
    acqOpen := fun hp => nomatch hp
    byteOpen := fun hp => nomatch hp
    byteDone := fun hp => nomatch hp
    idleBound := le_rfl }

theorem Shape.enterAcquire (h : Shape s) (hh : s.halted = false) (hb : s.txBusy = false) : Shape s.enterAcquire :=
  { h with
    haltedPhase := by simp [hh]
    busyPhase := fun hb' => nomatch hb.symm.trans hb'
    acqBound := Nat.zero_le _
    acqOpen := fun _ => frameLen_pos h.legal
    byteOpen := fun hp => nomatch hp
    byteDone := fun hp => nomatch hp }

theorem Shape.countDown (h : Shape s) : Shape s.countDown :=
  { h with idleBound := (Nat.sub_le _ _).trans h.idleBound }

/-! ### The steps of TX -/

theorem Shape.drive (h : Shape s) (l : Level) : Shape (s.drive l) :=
  { h with ticksBound := (Nat.sub_le _ _).trans_lt h.ticksBound }

theorem Shape.toSecondHalf (h : Shape s) {j : Nat} {p : PulseSymbol} (hp : s.readPb j = some p) :
    Shape (s.toSecondHalf p) :=
  { h with ticksBound := (h.pbFits _ (Memory.mem_of_read hp)).2 }

theorem Shape.toNextSymbol (h : Shape s) (hi : s.symIdx ≤ s.cfg.lastSlot) : Shape s.toNextSymbol :=
  { h with
    symBound := Nat.succ_le_succ hi
    ticksBound := h.firstTicks _ }

theorem Shape.endTransmission (h : Shape s) : Shape s.endTransmission :=
  { h with busyPhase := fun hb => nomatch hb }

theorem Shape.resumeAfterCompletion (h : Shape s) (hb : s.txBusy = false) : Shape s.resumeAfterCompletion := by
  unfold State.resumeAfterCompletion
  split
  · next hp =>
    have hh : s.halted = false := Bool.eq_false_iff.mpr fun hh => nomatch hp.symm.trans (h.haltedPhase.mp hh)
    exact h.enterIdle hh hb
  · exact h

/-! ### Instructions and steps -/

theorem execAcquire_keeps_shape (h : Shape s) (he : execAcquire s = .next t) : Shape t := by
  obtain ⟨⟨hp, hh, hb⟩, ⟨-, rfl⟩ | ⟨-, ⟨d, -, hd, rfl⟩ | ⟨k, -, hk, rfl⟩ | ⟨-, -, ha, rfl⟩ | ⟨-, -, rfl⟩⟩⟩ :=
    execAcquire_cases he
  · exact (h.failAcquire (h.acqOpen hp)).tick
  · exact h.takeFrame hh hb hd
  · exact h.failAcquire hk
  · exact (h.takeByte hp hh hb ha _).tick
  · exact h.tick

theorem execTransmit_keeps_shape (h : Shape s) (he : execTransmit s = .next t) : Shape t := by
  obtain ⟨⟨hp, -⟩, ⟨-, -, rfl⟩ | ⟨-, -, rfl⟩ | ⟨-, buf, -, rfl⟩⟩ := execTransmit_cases he
  · exact h.failTransmission
  · exact h
  · exact h.submit hp buf

theorem execIdle_keeps_shape (h : Shape s) (he : execIdle s = .next t) : Shape t := by
  obtain ⟨⟨-, hh, hb⟩, ⟨-, rfl⟩ | ⟨-, rfl⟩⟩ := execIdle_cases he
  · exact h.enterAcquire hh hb
  · exact h.countDown

theorem execTxEmit_keeps_shape (h : Shape s) (he : execTxEmit s = .next t) : Shape t := by
  obtain ⟨-, hi, p, hp, rfl⟩ := execTxEmit_cases he
  obtain ⟨-, e⟩ | ⟨-, -, e⟩ | ⟨-, -, e⟩ := emitSymbol_cases p s <;> rw [e]
  · exact h.drive _
  · exact h.toSecondHalf hp
  · exact h.toNextSymbol hi

theorem exec_keeps_shape {i : Instr} (h : Shape s) (he : exec i s = .next t) : Shape t := by
  cases i with
  | acquire => exact execAcquire_keeps_shape h he
  | encode =>
    obtain ⟨⟨hp, hh, hb⟩, hi, b, -, rfl⟩ := execEncode_cases he
    exact h.encodeWindow hp hh hb hi b
  | frame =>
    obtain ⟨⟨-, hh, -⟩, rfl⟩ := execFrame_cases he
    exact h.closeFrame hh
  | transmit => exact execTransmit_keeps_shape h he
  | idle => exact execIdle_keeps_shape h he
  | halt => obtain ⟨-, rfl⟩ := execHalt_cases he; exact h
  | txEmit => exact execTxEmit_keeps_shape h he
  | txDone =>
    obtain ⟨-, -, rfl⟩ := execTxDone_cases he
    exact h.endTransmission.resumeAfterCompletion rfl
  | encodeByte o b => cases he; exact h.congr rfl
  | decodeSymbol p => cases he; exact h.congr rfl
  | s0 => cases he; exact h.congr rfl
  | s1 => cases he; exact h.congr rfl
  | sr => cases he; exact h.congr rfl

end Shape

/-- Settles O40: of all a step can do, reset gives a state in shape whatever was before, and each operation keeps the
shape under the precondition its meaning checks. -/
theorem stepKeepsShape : Obligations.StepKeepsShape := by
  intro s t hs h
  obtain ⟨hl, ⟨-, r, rfl⟩ | ⟨-, ⟨-, rfl⟩ | ⟨-, -, rfl⟩ | ⟨-, -, -, rfl⟩ | ⟨-, -, -, u, hu, rfl⟩⟩⟩ := step_cases h
  · exact hs.congr rfl
  · exact (shape_holdReset hl).pop
  · exact (shape_releaseReset hl _ _).pop
  · exact hs.tick.pop
  · exact (exec_keeps_shape hs hu).settle s

end Sys2Proof.Machine

/-! PROOFS. The data line: every step keeps `Line`. At rest a step lets Low ticks pass or counts the gap down; in flight
the trace since the submit and the ticks to come are together the waveform of PB. -/

namespace Sys2Proof.Machine

section Line

variable {s t : State}

/-! ### At rest: no transmission in flight -/

/-- The Low ticks the line has shown at the end of its trace and the ticks of the gap still to be counted (R147). -/
def State.lowTicks (s : State) : Nat := trailingLow s.trace + if s.phase = .idle then s.idleCnt else 0

/-- With no transmission in flight the line has only to be Low, and to have been so for long enough. -/
theorem line_of_rest (hb : s.txBusy = false) (hd : s.dout = .low)
    (hlow : ∀ buf, s.log.getLast? = some buf → s.halted = false →
      tailLow s.cfg buf + s.cfg.idleGapTicks ≤ s.lowTicks) : Line s where
  quiet _ := hd
  position hb' := nomatch hb.symm.trans hb'
  drivenHigh hb' := nomatch hb.symm.trans hb'
  emission hb' := nomatch hb.symm.trans hb'
  lowTime buf hbuf hh _ := hlow buf hbuf hh

/-- A halted block keeps only the line Low. -/
theorem line_of_halted (hb : s.txBusy = false) (hd : s.dout = .low) (hh : s.halted = true) : Line s :=
  line_of_rest hb hd fun _ _ hh' => nomatch hh.symm.trans hh'

/-- The logs are empty before the first submit. -/
theorem line_of_empty_log (hb : s.txBusy = false) (hd : s.dout = .low) (hlog : s.log = []) : Line s :=
  line_of_rest hb hd fun buf hbuf _ => by rw [hlog] at hbuf; exact nomatch hbuf

/-- What LOOP does at rest keeps the line when it does not shorten the low time. -/
theorem Line.rest (h : Line s) (hb : s.txBusy = false) (e : t = { s with
      fb := t.fb, pb := t.pb, phase := t.phase, acqCount := t.acqCount, byteIdx := t.byteIdx, idleCnt := t.idleCnt
      trace := t.trace, inputs := t.inputs }) (hlow : s.lowTicks ≤ t.lowTicks) : Line t := by
  have hlog : t.log = s.log := by rw [e]
  have hh : t.halted = s.halted := by rw [e]
  have hc : t.cfg = s.cfg := by rw [e]
  refine line_of_rest (by rw [e]; exact hb) (by rw [e]; exact h.quiet hb) fun buf hbuf hh' => ?_
  rw [hc]
  exact (h.lowTime buf (hlog ▸ hbuf) (hh ▸ hh') hb).trans hlow

theorem Line.pop (h : Line s) : Line s.pop := h.congr rfl

theorem lowTicks_le_tick (hd : s.dout = .low) : s.lowTicks ≤ s.tick.lowTicks := by
  refine Nat.add_le_add_right ?_ _
  rw [tick_trace, hd, trailingLow_snoc]
  exact Nat.le_succ _

theorem Line.tick_of_rest (h : Line s) (hb : s.txBusy = false) : Line s.tick :=
  h.rest hb rfl (lowTicks_le_tick (h.quiet hb))

theorem Line.takeFrame (h : Line s) (hb : s.txBusy = false) (hp : s.phase = .acquire) (d : List Byte) :
    Line (s.takeFrame d) :=
  h.rest hb rfl (by simp [State.lowTicks, hp])

theorem Line.takeByte (h : Line s) (hb : s.txBusy = false) (hp : s.phase = .acquire) (b : Byte) :
    Line (s.takeByte b) :=
  h.rest hb rfl (by simp [State.lowTicks, hp])

theorem Line.encodeWindow (h : Line s) (hb : s.txBusy = false) (hp : s.phase = .encode) (b : Byte) :
    Line (s.encodeWindow b) :=
  h.rest hb rfl (by simp [State.lowTicks, hp])

theorem Line.closeFrame (h : Line s) (hb : s.txBusy = false) (hp : s.phase = .frame) : Line s.closeFrame :=
  h.rest hb rfl (by simp [State.lowTicks, hp])

theorem Line.enterAcquire (h : Line s) (hb : s.txBusy = false) (hz : s.idleCnt = 0) : Line s.enterAcquire :=
  h.rest hb rfl (by simp [State.lowTicks, hz])

/-- What a tick of the gap takes from IDLE_CNT it adds to the Low ticks of the trace. -/
theorem Line.countDown (h : Line s) (hb : s.txBusy = false) (hp : s.phase = .idle) : Line s.countDown :=
  h.rest hb rfl (by
    simp only [State.lowTicks, countDown_trace, countDown_phase, countDown_idleCnt, h.quiet hb, hp,
      trailingLow_snoc, if_true]
    omega)

/-! ### In flight -/

/-- The trace since the submit and the ticks TX has still to drive of `buf`. -/
def State.waveform (s : State) (buf : List PulseSymbol) : List Level := s.trace.drop s.txMark ++ s.remaining buf

/-- The ticks to come of the symbol TX stands at, and of the symbols after it. -/
theorem remaining_of_symbol {buf : List PulseSymbol} {p : PulseSymbol} (hp : buf[s.symIdx]? = some p) :
    s.remaining buf = List.replicate s.ticksLeft (p.level s.half) ++ secondHalfToCome p s.half ++
      ticks (buf.drop (s.symIdx + 1)) := by
  simp [State.remaining, hp]

theorem remaining_past_end {buf : List PulseSymbol} (hi : buf.length ≤ s.symIdx) : s.remaining buf = [] := by
  simp [State.remaining, List.getElem?_eq_none hi]

/-- At the start of a symbol all its ticks are to come, and those of the symbols after it. -/
theorem remaining_at_start {buf : List PulseSymbol} (hh : s.half = .first)
    (ht : ∀ p, buf[s.symIdx]? = some p → s.ticksLeft = p.d0) : s.remaining buf = ticks (buf.drop s.symIdx) := by
  cases hp : buf[s.symIdx]? with
  | none =>
    have hlen := List.getElem?_eq_none_iff.mp hp
    rw [remaining_past_end hlen, List.drop_eq_nil_of_le hlen, ticks_nil]
  | some p =>
    obtain ⟨hi, rfl⟩ := List.getElem?_eq_some_iff.mp hp
    rw [remaining_of_symbol hp, List.drop_eq_getElem_cons hi, ticks_cons, hh, ht _ hp]
    rfl

theorem bufferLen_eq_length {buf : List PulseSymbol} (hbuf : s.buffer = some buf) : buf.length = s.cfg.bufferLen :=
  ((Memory.readSpan_eq_some _).mp hbuf).1

theorem buffer_getElem? {buf : List PulseSymbol} (hbuf : s.buffer = some buf) {j : Nat} (hj : j ≤ s.cfg.lastSlot) :
    buf[j]? = s.readPb j :=
  (buffer_get hbuf (Nat.lt_succ_of_le hj)).symm

theorem firstTicks_of_readPb {j : Nat} {p : PulseSymbol} (hp : s.readPb j = some p) : s.firstTicks j = p.d0 := by
  simp [State.firstTicks, hp]

theorem firstTicks_of_buffer {buf : List PulseSymbol} (hbuf : s.buffer = some buf) {j : Nat} {p : PulseSymbol}
    (hp : buf[j]? = some p) : s.firstTicks j = p.d0 := by
  have hj : j < s.cfg.bufferLen := bufferLen_eq_length hbuf ▸ (List.getElem?_eq_some_iff.mp hp).1
  exact firstTicks_of_readPb ((buffer_get hbuf hj).trans hp)

/-- A tick comes to the end of the part of the trace since the submit. -/
theorem drop_mark_append (hm : s.txMark ≤ s.trace.length) (l : Level) :
    (s.trace ++ [l]).drop s.txMark = s.trace.drop s.txMark ++ [l] :=
  List.drop_append_of_le_length hm

/-! The steps of TX leave the waveform as it is: a tick goes from what is to come to what has been. -/

theorem waveform_drive {buf : List PulseSymbol} {p : PulseSymbol} (hp : buf[s.symIdx]? = some p)
    (hm : s.txMark ≤ s.trace.length) (ht : s.ticksLeft ≠ 0) :
    (s.drive (p.level s.half)).waveform buf = s.waveform buf := by
  obtain ⟨n, hn⟩ := Nat.exists_eq_succ_of_ne_zero ht
  have hp' : buf[(s.drive (p.level s.half)).symIdx]? = some p := hp
  rw [State.waveform, State.waveform, remaining_of_symbol hp, remaining_of_symbol hp', drive_trace, drive_txMark,
    drop_mark_append hm, drive_ticksLeft, hn]
  simp [List.replicate_succ]

theorem waveform_toSecondHalf {buf : List PulseSymbol} {p : PulseSymbol} (hp : buf[s.symIdx]? = some p)
    (hh : s.half = .first) (ht : s.ticksLeft = 0) : (s.toSecondHalf p).waveform buf = s.waveform buf := by
  have hp' : buf[(s.toSecondHalf p).symIdx]? = some p := hp
  rw [State.waveform, State.waveform, remaining_of_symbol hp, remaining_of_symbol hp', hh, ht]
  simp [secondHalfToCome, PulseSymbol.level]

theorem waveform_toNextSymbol {buf : List PulseSymbol} {p : PulseSymbol} (hbuf : s.buffer = some buf)
    (hp : buf[s.symIdx]? = some p) (hh : s.half = .second) (ht : s.ticksLeft = 0) :
    s.toNextSymbol.waveform buf = s.waveform buf := by
  have hnext : s.toNextSymbol.remaining buf = ticks (buf.drop (s.symIdx + 1)) :=
    remaining_at_start rfl fun _ hq => firstTicks_of_buffer hbuf hq
  rw [State.waveform, State.waveform, remaining_of_symbol hp, hnext, hh, ht]
  simp [secondHalfToCome]

/-- The waveform is `ticks` of the buffer between the Low ticks of the two latencies (R136, R137, R138). -/
def State.Emits (s : State) (buf : List PulseSymbol) : Prop :=
  ∃ a b : Nat, s.waveform buf = List.replicate a .low ++ ticks buf ++ List.replicate b .low ∧
    (b ≠ 0 → s.symIdx = s.cfg.bufferLen)

/-- Before the last symbol is emitted no tick of the completion latency has passed. -/
theorem State.Emits.waveform_eq {buf : List PulseSymbol} (h : s.Emits buf) (hi : s.symIdx ≤ s.cfg.lastSlot) :
    ∃ a : Nat, s.waveform buf = List.replicate a .low ++ ticks buf := by
  obtain ⟨a, b, hw, hend⟩ := h
  obtain rfl : b = 0 := by
    by_contra hb
    exact absurd (hend hb) (Nat.lt_succ_of_le hi).ne
  exact ⟨a, by simpa using hw⟩

theorem emits_of_waveform_eq {buf : List PulseSymbol} {a : Nat}
    (h : s.waveform buf = List.replicate a .low ++ ticks buf) : s.Emits buf :=
  ⟨a, 0, by simpa using h, fun hb => absurd rfl hb⟩

/-- In flight the line has to keep to the half TX stands in and to the waveform of PB. -/
theorem line_of_flight (hb : s.txBusy = true)
    (hpos : ∀ p, s.readPb s.symIdx = some p → s.ticksLeft ≤ p.duration s.half)
    (hhigh : s.dout = .high → ∃ p, s.readPb s.symIdx = some p ∧ p.level s.half = .high ∧
      s.ticksLeft < p.duration s.half)
    (hm : s.txMark ≤ s.trace.length) (hw : ∀ buf, s.buffer = some buf → s.Emits buf) : Line s where
  quiet hb' := nomatch hb'.symm.trans hb
  position _ := hpos
  drivenHigh _ := hhigh
  emission _ := ⟨hm, hw⟩
  lowTime _ _ _ hb' := nomatch hb'.symm.trans hb

theorem Line.emits (h : Line s) (hb : s.txBusy = true) {buf : List PulseSymbol} (hbuf : s.buffer = some buf) :
    s.Emits buf :=
  (h.emission hb).2 buf hbuf

/-- In flight DOUT is Low where TX has not yet driven a tick of a High half. -/
theorem Line.dout_low (h : Line s) (hb : s.txBusy = true)
    (hn : ∀ p, s.readPb s.symIdx = some p → p.level s.half = .high → p.duration s.half ≤ s.ticksLeft) :
    s.dout = .low := by
  cases hd : s.dout with
  | low => rfl
  | high =>
    obtain ⟨p, hp, hlevel, hlt⟩ := h.drivenHigh hb hd
    exact absurd hlt (hn p hp hlevel).not_gt

/-- In flight PB is built from a whole frame (R141). -/
theorem built_in_flight (hs : Shape s) (hc : Contents s) (hb : s.txBusy = true) :
    ∃ f : List Byte, f.length = s.cfg.frameLen ∧ s.buffer = some (buildPb s.cfg s.bitOrderQ f) := by
  obtain ⟨f, hf, hbuf⟩ := hc.built (hs.busyPhase hb)
  exact ⟨f, ((Memory.readSpan_eq_some _).mp hf).1, hbuf⟩

/-- Half 1 of every symbol in flight is Low (R84, R85, R86). -/
theorem second_half_low_in_flight (hs : Shape s) (hc : Contents s) (hb : s.txBusy = true)
    (hi : s.symIdx ≤ s.cfg.lastSlot) {p : PulseSymbol} (hp : s.readPb s.symIdx = some p) : p.l1 = .low := by
  obtain ⟨f, -, hbuf⟩ := built_in_flight hs hc hb
  have hmem := List.mem_of_getElem? ((buffer_getElem? hbuf hi).trans hp)
  rcases mem_buildPb hmem with rfl | rfl | rfl <;> rfl

theorem doutAtSymbol_of_low (hd : s.dout = .low) (j : Nat) : s.doutAtSymbol j = .low := by
  unfold State.doutAtSymbol doutEntering
  split <;> simp [hd]

/-! ### The steps of a transmission -/

theorem Line.submit (h : Line s) (hb : s.txBusy = false) (buf : List PulseSymbol) : Line (s.submit buf) := by
  refine line_of_flight rfl (fun p hp => (firstTicks_of_readPb hp).le)
    (fun hd => nomatch (h.quiet hb).symm.trans hd) le_rfl fun buf' hbuf => emits_of_waveform_eq (a := 0) ?_
  have hstart : (s.submit buf).remaining buf' = ticks (buf'.drop 0) :=
    remaining_at_start rfl fun _ hp => firstTicks_of_buffer hbuf hp
  simp [State.waveform, hstart]

theorem Line.drive (h : Line s) (hb : s.txBusy = true) (hi : s.symIdx ≤ s.cfg.lastSlot) {p : PulseSymbol}
    (hp : s.readPb s.symIdx = some p) (ht : s.ticksLeft ≠ 0) : Line (s.drive (p.level s.half)) := by
  have hpos := h.position hb p hp
  obtain ⟨hm, -⟩ := h.emission hb
  refine line_of_flight hb (fun q hq => (Nat.sub_le _ _).trans (h.position hb q hq))
    (fun hd => ⟨p, hp, hd, (Nat.sub_one_lt ht).trans_le hpos⟩) ?_ fun buf hbuf => ?_
  · rw [drive_txMark, drive_trace, List.length_append]; omega
  · obtain ⟨a, hw⟩ := (h.emits hb hbuf).waveform_eq hi
    exact emits_of_waveform_eq ((waveform_drive ((buffer_getElem? hbuf hi).trans hp) hm ht).trans hw)

theorem Line.toSecondHalf (h : Line s) (hb : s.txBusy = true) (hi : s.symIdx ≤ s.cfg.lastSlot) {p : PulseSymbol}
    (hp : s.readPb s.symIdx = some p) (hlow : p.l1 = .low) (hh : s.half = .first) (ht : s.ticksLeft = 0) :
    Line (s.toSecondHalf p) := by
  refine line_of_flight hb (fun q hq => ?_) (fun hd => ?_) (h.emission hb).1 fun buf hbuf => ?_
  · obtain rfl : p = q := Option.some.inj (hp.symm.trans hq)
    exact le_rfl
  · simp [doutEntering, hlow] at hd
  · obtain ⟨a, hw⟩ := (h.emits hb hbuf).waveform_eq hi
    exact emits_of_waveform_eq ((waveform_toSecondHalf ((buffer_getElem? hbuf hi).trans hp) hh ht).trans hw)

theorem Line.toNextSymbol (h : Line s) (hb : s.txBusy = true) (hi : s.symIdx ≤ s.cfg.lastSlot) {p : PulseSymbol}
    (hp : s.readPb s.symIdx = some p) (hlow : p.l1 = .low) (hh : s.half = .second) (ht : s.ticksLeft = 0) :
    Line s.toNextSymbol := by
  have hd : s.dout = .low := h.dout_low hb fun q hq hlevel => by
    obtain rfl : p = q := Option.some.inj (hp.symm.trans hq)
    rw [hh] at hlevel
    exact nomatch hlow.symm.trans hlevel
  refine line_of_flight hb (fun q hq => (firstTicks_of_readPb hq).le)
    (fun hd' => nomatch (doutAtSymbol_of_low hd _).symm.trans hd') (h.emission hb).1 fun buf hbuf => ?_
  obtain ⟨a, hw⟩ := (h.emits hb hbuf).waveform_eq hi
  exact emits_of_waveform_eq ((waveform_toNextSymbol (s := s) hbuf ((buffer_getElem? hbuf hi).trans hp) hh ht).trans hw)

/-- Once all symbols are emitted the trace ends in the Low tail of the buffer (R147). -/
theorem Line.tailLow_le (h : Line s) (hl : s.cfg.legal = true) (hb : s.txBusy = true)
    (hi : s.symIdx = s.cfg.bufferLen) {f : List Byte} (hf : f.length = s.cfg.frameLen)
    (hbuf : s.buffer = some (buildPb s.cfg s.bitOrderQ f)) :
    tailLow s.cfg (buildPb s.cfg s.bitOrderQ f) ≤ trailingLow s.trace := by
  obtain ⟨a, b, hw, -⟩ := h.emits hb hbuf
  rw [State.waveform, remaining_past_end (by rw [bufferLen_eq_length hbuf, hi]), List.append_nil] at hw
  have htrace : s.trace = s.trace.take s.txMark ++ List.replicate a .low ++ ticks (buildPb s.cfg s.bitOrderQ f) ++
      List.replicate b .low := by
    rw [List.append_assoc, List.append_assoc, ← List.append_assoc (List.replicate a _), ← hw, List.take_append_drop]
  rw [htrace]
  exact tail_buildPb hl hf b _

theorem Line.complete (h : Line s) (hs : Shape s) (hc : Contents s) (hb : s.txBusy = true)
    (hi : s.symIdx = s.cfg.bufferLen) : Line s.endTransmission.resumeAfterCompletion := by
  obtain ⟨f, hf, hbuf⟩ := built_in_flight hs hc hb
  refine line_of_rest (by simp) (by simp) fun buf hlast _ => ?_
  obtain rfl : buildPb s.cfg s.bitOrderQ f = buf := by
    simpa [hc.borrowed hb, hbuf] using hlast
  have htail := h.tailLow_le hs.legal hb hi hf hbuf
  simpa [State.lowTicks, hs.busyPhase hb] using htail

/-! ### The waits that `hold` lengthens (log 10) -/

theorem held_in_flight (hb : s.txBusy = true) (hh : s.held = true) :
    s.symIdx = 0 ∧ s.half = .first ∧ s.ticksLeft = s.firstTicks 0 ∨ s.symIdx = s.cfg.bufferLen := by
  obtain ⟨-, -, -, hwhere⟩ : s.cur.hold = true ∧ s.halted = false ∧ s.cur.txErr = false ∧
      (s.beforeFirstTick = true ∨ s.afterLastTick = true) := by
    simpa [State.held, State.canHold, hb] using hh
  simpa [State.beforeFirstTick, State.afterLastTick, and_assoc] using hwhere

/-- A tick at which DOUT is Low moves no position of TX; the waveform is all that changes. -/
theorem Line.tick_in_flight (h : Line s) (hb : s.txBusy = true) (hd : s.dout = .low)
    (hw : ∀ buf, s.buffer = some buf → s.tick.Emits buf) : Line s.tick := by
  refine line_of_flight hb (h.position hb) (fun hd' => nomatch hd.symm.trans hd') ?_ hw
  have := (h.emission hb).1
  rw [tick_txMark, tick_trace, List.length_append]; omega

theorem Line.tick_before_first (h : Line s) (hb : s.txBusy = true) (hi : s.symIdx = 0) (hh : s.half = .first)
    (ht : s.ticksLeft = s.firstTicks 0) : Line s.tick := by
  have hd : s.dout = .low := h.dout_low hb fun p hp _ => by
    rw [hh, ht, firstTicks_of_readPb (hi ▸ hp)]; exact le_rfl
  refine h.tick_in_flight hb hd fun buf hbuf => ?_
  have hstart : s.remaining buf = ticks buf := by
    rw [remaining_at_start hh fun p hp => ht.trans (firstTicks_of_buffer hbuf (hi ▸ hp)), hi, List.drop_zero]
  obtain ⟨a, hw⟩ := (h.emits hb hbuf).waveform_eq (hi ▸ Nat.zero_le _)
  rw [State.waveform, hstart] at hw
  refine emits_of_waveform_eq (a := a + 1) ?_
  calc s.tick.waveform buf
      = s.trace.drop s.txMark ++ [s.dout] ++ s.remaining buf :=
        congrArg (· ++ s.remaining buf) (drop_mark_append (h.emission hb).1 s.dout)
    _ = List.replicate (a + 1) .low ++ ticks buf := by
        rw [List.append_cancel_right hw, hd, hstart, List.replicate_succ']

theorem Line.tick_after_last (h : Line s) (hs : Shape s) (hb : s.txBusy = true) (hi : s.symIdx = s.cfg.bufferLen) :
    Line s.tick := by
  have hd : s.dout = .low := h.dout_low hb fun p hp _ =>
    nomatch (Memory.read_outside hs.pbForm hi.ge).symm.trans hp
  refine h.tick_in_flight hb hd fun buf hbuf => ?_
  have hend : s.remaining buf = [] := remaining_past_end (by rw [bufferLen_eq_length hbuf, hi])
  obtain ⟨a, b, hw, -⟩ := h.emits hb hbuf
  rw [State.waveform, hend, List.append_nil] at hw
  refine ⟨a, b + 1, ?_, fun _ => hi⟩
  calc s.tick.waveform buf
      = s.trace.drop s.txMark ++ [s.dout] ++ s.remaining buf :=
        congrArg (· ++ s.remaining buf) (drop_mark_append (h.emission hb).1 s.dout)
    _ = List.replicate a .low ++ ticks buf ++ List.replicate (b + 1) .low := by
        rw [hw, hd, hend, List.append_nil, List.append_assoc, ← List.replicate_succ']

theorem Line.tick_of_held (h : Line s) (hs : Shape s) (hh : s.held = true) : Line s.tick := by
  cases hb : s.txBusy with
  | false => exact h.tick_of_rest hb
  | true =>
    rcases held_in_flight hb hh with ⟨hi, hf, ht⟩ | hi
    · exact h.tick_before_first hb hi hf ht
    · exact h.tick_after_last hs hb hi

/-! ### Instructions and steps -/

theorem execAcquire_keeps_line (h : Line s) (he : execAcquire s = .next t) : Line t := by
  obtain ⟨⟨hp, -, hb⟩, ⟨-, rfl⟩ | ⟨-, ⟨d, -, -, rfl⟩ | ⟨k, -, -, rfl⟩ | ⟨-, -, -, rfl⟩ | ⟨-, -, rfl⟩⟩⟩ :=
    execAcquire_cases he
  · exact line_of_halted rfl rfl rfl
  · exact h.takeFrame hb hp d
  · exact line_of_halted rfl rfl rfl
  · exact (h.takeByte hb hp _).tick_of_rest hb
  · exact h.tick_of_rest hb

theorem execTransmit_keeps_line (h : Line s) (he : execTransmit s = .next t) : Line t := by
  obtain ⟨-, ⟨-, -, rfl⟩ | ⟨-, -, rfl⟩ | ⟨hb, buf, -, rfl⟩⟩ := execTransmit_cases he
  · exact line_of_halted rfl rfl rfl
  · exact h
  · exact h.submit hb buf

theorem execIdle_keeps_line (h : Line s) (he : execIdle s = .next t) : Line t := by
  obtain ⟨⟨hp, -, hb⟩, ⟨hz, rfl⟩ | ⟨-, rfl⟩⟩ := execIdle_cases he
  · exact h.enterAcquire hb hz
  · exact h.countDown hb hp

theorem execTxEmit_keeps_line (h : Line s) (hs : Shape s) (hc : Contents s) (he : execTxEmit s = .next t) :
    Line t := by
  obtain ⟨hb, hi, p, hp, rfl⟩ := execTxEmit_cases he
  have hlow := second_half_low_in_flight hs hc hb hi hp
  obtain ⟨ht, e⟩ | ⟨ht, hh, e⟩ | ⟨ht, hh, e⟩ := emitSymbol_cases p s <;> rw [e]
  · exact h.drive hb hi hp ht
  · exact h.toSecondHalf hb hi hp hlow hh ht
  · exact h.toNextSymbol hb hi hp hlow hh ht

theorem exec_keeps_line {i : Instr} (h : Line s) (hs : Shape s) (hc : Contents s) (he : exec i s = .next t) :
    Line t := by
  cases i with
  | acquire => exact execAcquire_keeps_line h he
  | encode =>
    obtain ⟨⟨hp, -, hb⟩, -, b, -, rfl⟩ := execEncode_cases he
    exact h.encodeWindow hb hp b
  | frame =>
    obtain ⟨⟨hp, -, hb⟩, rfl⟩ := execFrame_cases he
    exact h.closeFrame hb hp
  | transmit => exact execTransmit_keeps_line h he
  | idle => exact execIdle_keeps_line h he
  | halt => obtain ⟨-, rfl⟩ := execHalt_cases he; exact h
  | txEmit => exact execTxEmit_keeps_line h hs hc he
  | txDone =>
    obtain ⟨hb, hi, rfl⟩ := execTxDone_cases he
    exact h.complete hs hc hb hi
  | encodeByte o b => cases he; exact h.congr rfl
  | decodeSymbol p => cases he; exact h.congr rfl
  | s0 => cases he; exact h.congr rfl
  | s1 => cases he; exact h.congr rfl
  | sr => cases he; exact h.congr rfl

/-- A halted block runs HALT, which changes nothing (R176). -/
theorem exec_operation_of_halted (hh : s.halted = true) (he : exec s.operation s = .next t) : t = s := by
  have hop : s.operation = .halt := by simp [State.operation, hh]
  rw [hop] at he
  exact (execHalt_cases he).2

/-- A halted block has no transmission in flight (R175, R215). -/
theorem Shape.not_busy_of_halted (hs : Shape s) (hh : s.halted = true) : s.txBusy = false :=
  Bool.eq_false_iff.mpr fun hb => nomatch (hs.busyPhase hb).symm.trans (hs.haltedPhase.mp hh)

theorem operation_keeps_line (h : Line s) (hs : Shape s) (hc : Contents s) (hp : s.callPending = false)
    (he : exec s.operation s = .next t) : Line (s.settle t) := by
  rw [settle_of_not_pending hp]
  split_ifs with hh
  · obtain rfl := exec_operation_of_halted hh he
    exact (h.tick_of_rest (hs.not_busy_of_halted hh)).pop
  · exact (exec_keeps_line h hs hc he).pop

end Line

/-- Settles O42: at rest no step shortens the low time; in flight TX moves ticks from those to come to the trace, `hold`
adds Low ticks before the first and after the last of them, and TX_DONE leaves the Low tail of PB at the end. -/
theorem stepKeepsLine : Obligations.StepKeepsLine := by
  intro s t hs hc h hstep
  obtain ⟨-, ⟨-, r, rfl⟩ | ⟨hp, ⟨-, rfl⟩ | ⟨-, -, rfl⟩ | ⟨-, -, hh, rfl⟩ | ⟨-, -, -, u, hu, rfl⟩⟩⟩ := step_cases hstep
  · exact h.congr rfl
  · exact line_of_empty_log rfl rfl rfl
  · exact line_of_empty_log (by simp) (by simp) (by simp)
  · exact (h.tick_of_held hs hh).pop
  · exact operation_keeps_line h hs hc hp hu

end Sys2Proof.Machine

/-! PROOFS. Who writes the buffers and TX_BUSY, what the outputs show, and the states a reset leaves. -/

namespace Sys2Proof.Machine

section Frames

variable {s t : State}

/-! ### The buffers (R21, R22, R61) -/

/-- FB and PB of `t` are those of `s`. -/
def State.SameBuffers (s t : State) : Prop := t.fb = s.fb ∧ t.pb = s.pb

theorem execTransmit_sameBuffers (he : execTransmit s = .next t) : s.SameBuffers t := by
  obtain ⟨-, ⟨-, -, rfl⟩ | ⟨-, -, rfl⟩ | ⟨-, buf, -, rfl⟩⟩ := execTransmit_cases he <;> exact ⟨rfl, rfl⟩

theorem execIdle_sameBuffers (he : execIdle s = .next t) : s.SameBuffers t := by
  obtain ⟨-, ⟨-, rfl⟩ | ⟨-, rfl⟩⟩ := execIdle_cases he <;> exact ⟨rfl, rfl⟩

theorem execTxEmit_sameBuffers (he : execTxEmit s = .next t) : s.SameBuffers t := by
  obtain ⟨-, -, p, -, rfl⟩ := execTxEmit_cases he
  obtain ⟨-, e⟩ | ⟨-, -, e⟩ | ⟨-, -, e⟩ := emitSymbol_cases p s <;> rw [e] <;> exact ⟨rfl, rfl⟩

theorem execTxDone_sameBuffers (he : execTxDone s = .next t) : s.SameBuffers t := by
  obtain ⟨-, -, rfl⟩ := execTxDone_cases he
  exact ⟨by simp, by simp⟩

theorem execAcquire_pb (he : execAcquire s = .next t) : t.pb = s.pb := by
  obtain ⟨-, ⟨-, rfl⟩ | ⟨-, ⟨d, -, -, rfl⟩ | ⟨k, -, -, rfl⟩ | ⟨-, -, -, rfl⟩ | ⟨-, -, rfl⟩⟩⟩ := execAcquire_cases he <;>
    rfl

/-- An instruction that changes a buffer is ACQUIRE writing FB, or ENCODE or FRAME writing PB, each at the boundary of
its phase. -/
theorem exec_buffers {i : Instr} (he : exec i s = .next t) :
    s.SameBuffers t ∨ (t.pb = s.pb ∧ s.atBoundary .acquire) ∨
      (t.fb = s.fb ∧ (s.atBoundary .encode ∨ s.atBoundary .frame)) := by
  cases i with
  | acquire => exact .inr (.inl ⟨execAcquire_pb he, (execAcquire_cases he).1⟩)
  | encode =>
    obtain ⟨hat, -, b, -, rfl⟩ := execEncode_cases he
    exact .inr (.inr ⟨rfl, .inl hat⟩)
  | frame =>
    obtain ⟨hat, rfl⟩ := execFrame_cases he
    exact .inr (.inr ⟨rfl, .inr hat⟩)
  | transmit => exact .inl (execTransmit_sameBuffers he)
  | idle => exact .inl (execIdle_sameBuffers he)
  | halt => obtain ⟨-, rfl⟩ := execHalt_cases he; exact .inl ⟨rfl, rfl⟩
  | txEmit => exact .inl (execTxEmit_sameBuffers he)
  | txDone => exact .inl (execTxDone_sameBuffers he)
  | encodeByte o b => cases he; exact .inl ⟨rfl, rfl⟩
  | decodeSymbol p => cases he; exact .inl ⟨rfl, rfl⟩
  | s0 => cases he; exact .inl ⟨rfl, rfl⟩
  | s1 => cases he; exact .inl ⟨rfl, rfl⟩
  | sr => cases he; exact .inl ⟨rfl, rfl⟩

theorem settle_sameBuffers (s t : State) : t.SameBuffers (s.settle t) := by
  unfold State.settle
  split_ifs <;> exact ⟨rfl, rfl⟩

/-- The same of a step without reset, whose calls and waits write no buffer. -/
theorem step_buffers (h : step s = .next t) (hrst : s.cur.rst = false) (hin : s.inReset = false) :
    s.SameBuffers t ∨ (t.pb = s.pb ∧ s.atBoundary .acquire) ∨
      (t.fb = s.fb ∧ (s.atBoundary .encode ∨ s.atBoundary .frame)) := by
  obtain ⟨-, ⟨-, r, rfl⟩ | ⟨-, ⟨hrst', -⟩ | ⟨-, hin', -⟩ | ⟨-, -, -, rfl⟩ | ⟨-, -, -, u, hu, rfl⟩⟩⟩ := step_cases h
  · exact .inl ⟨rfl, rfl⟩
  · exact nomatch hrst.symm.trans hrst'
  · exact nomatch hin.symm.trans hin'
  · exact .inl ⟨rfl, rfl⟩
  · obtain ⟨hfb, hpb⟩ := settle_sameBuffers s u
    rw [State.SameBuffers, hfb, hpb]
    exact exec_buffers hu

/-! ### TX_BUSY (R25) -/

/-- Between `s` and `t` TX_BUSY is set only by a submit, and cleared only by the TRANSMIT fault or after the last
symbol. -/
def State.BusyRule (s t : State) : Prop :=
  (s.txBusy = false → t.txBusy = true → s.phase = .transmit ∧ s.halted = false ∧ t.symIdx = 0 ∧
    ∃ buf, s.buffer = some buf ∧ t.log = s.log ++ [buf]) ∧
  (s.txBusy = true → t.txBusy = false →
    (t.halted = true ∧ t.faultCause = .transmit ∧ s.cur.txErr = true) ∨ s.symIdx = s.cfg.bufferLen)

theorem busyRule_of_kept (h : t.txBusy = s.txBusy) : s.BusyRule t :=
  ⟨fun hs ht => (nomatch (h.trans hs).symm.trans ht), fun hs ht => (nomatch (h.trans hs).symm.trans ht)⟩

theorem busyRule_of_clear (hs : s.txBusy = false) (ht : t.txBusy = false) : s.BusyRule t :=
  busyRule_of_kept (ht.trans hs.symm)

theorem execAcquire_busyRule (he : execAcquire s = .next t) : s.BusyRule t := by
  obtain ⟨⟨-, -, hb⟩, ⟨-, rfl⟩ | ⟨-, ⟨d, -, -, rfl⟩ | ⟨k, -, -, rfl⟩ | ⟨-, -, -, rfl⟩ | ⟨-, -, rfl⟩⟩⟩ :=
    execAcquire_cases he
  · exact busyRule_of_clear hb rfl
  · exact busyRule_of_kept rfl
  · exact busyRule_of_clear hb rfl
  · exact busyRule_of_kept rfl
  · exact busyRule_of_kept rfl

theorem execTransmit_busyRule (he : execTransmit s = .next t) : s.BusyRule t := by
  obtain ⟨⟨hp, hh⟩, ⟨hb, hx, rfl⟩ | ⟨-, -, rfl⟩ | ⟨hb, buf, hbuf, rfl⟩⟩ := execTransmit_cases he
  · exact ⟨fun hb' => (nomatch hb'.symm.trans hb), fun _ _ => .inl ⟨rfl, rfl, hx⟩⟩
  · exact busyRule_of_kept rfl
  · exact ⟨fun _ _ => ⟨hp, hh, rfl, buf, hbuf, rfl⟩, fun hb' => nomatch hb'.symm.trans hb⟩

theorem execTxEmit_busyRule (he : execTxEmit s = .next t) : s.BusyRule t := by
  obtain ⟨-, -, p, -, rfl⟩ := execTxEmit_cases he
  obtain ⟨-, e⟩ | ⟨-, -, e⟩ | ⟨-, -, e⟩ := emitSymbol_cases p s <;> rw [e] <;> exact busyRule_of_kept rfl

theorem execTxDone_busyRule (he : execTxDone s = .next t) : s.BusyRule t := by
  obtain ⟨hb, hi, rfl⟩ := execTxDone_cases he
  exact ⟨fun hb' => (nomatch hb'.symm.trans hb), fun _ _ => .inr hi⟩

theorem exec_busyRule {i : Instr} (he : exec i s = .next t) : s.BusyRule t := by
  cases i with
  | acquire => exact execAcquire_busyRule he
  | encode => obtain ⟨-, -, b, -, rfl⟩ := execEncode_cases he; exact busyRule_of_kept rfl
  | frame => obtain ⟨-, rfl⟩ := execFrame_cases he; exact busyRule_of_kept rfl
  | transmit => exact execTransmit_busyRule he
  | idle => obtain ⟨-, ⟨-, rfl⟩ | ⟨-, rfl⟩⟩ := execIdle_cases he <;> exact busyRule_of_kept rfl
  | halt => obtain ⟨-, rfl⟩ := execHalt_cases he; exact busyRule_of_kept rfl
  | txEmit => exact execTxEmit_busyRule he
  | txDone => exact execTxDone_busyRule he
  | encodeByte o b => cases he; exact busyRule_of_kept rfl
  | decodeSymbol p => cases he; exact busyRule_of_kept rfl
  | s0 => cases he; exact busyRule_of_kept rfl
  | s1 => cases he; exact busyRule_of_kept rfl
  | sr => cases he; exact busyRule_of_kept rfl

/-- What the step adds after an instruction is outside what the rule speaks of. -/
theorem State.BusyRule.settle (h : s.BusyRule t) : s.BusyRule (s.settle t) := by
  unfold State.settle
  split_ifs <;> exact h

/-- A step keeps the rule, or is a tick in reset or its release, after which no transmission is in flight. -/
theorem step_busyRule (h : step s = .next t) :
    s.BusyRule t ∨ (t.txBusy = false ∧ (s.cur.rst = true ∨ s.inReset = true)) := by
  obtain ⟨-, ⟨-, r, rfl⟩ | ⟨-, ⟨hrst, rfl⟩ | ⟨-, hin, rfl⟩ | ⟨-, -, -, rfl⟩ | ⟨-, -, -, u, hu, rfl⟩⟩⟩ := step_cases h
  · exact .inl (busyRule_of_kept rfl)
  · exact .inr ⟨rfl, .inl hrst⟩
  · exact .inr ⟨by simp, .inr hin⟩
  · exact .inl (busyRule_of_kept rfl)
  · exact .inl (exec_busyRule hu).settle

/-! ### The output ports (R39) -/

theorem samplesSource_iff : s.samplesSource = true ↔
    s.phase = .acquire ∧ s.halted = false ∧ s.txBusy = false ∧ s.inReset = false ∧ s.cur.rst = false := by
  simp [State.samplesSource, and_assoc]

theorem Shape.running_of_acquire (h : Shape s) (hp : s.phase = .acquire) : s.halted = false ∧ s.txBusy = false := by
  refine ⟨Bool.eq_false_iff.mpr fun hh => ?_, Bool.eq_false_iff.mpr fun hb => ?_⟩
  · exact nomatch hp.symm.trans (h.haltedPhase.mp hh)
  · exact nomatch hp.symm.trans (h.busyPhase hb)

theorem outputs_dout_iff : s.outputs.dout = 1#1 ↔ s.dout = .high := by
  cases hd : s.dout <;> simp [State.outputs, hd, Level.code]

/-! ### The states a reset leaves (R38) -/

/-- Before the first byte is acquired, with no log, there is nothing the buffers have to hold. -/
theorem contents_of_empty_acquire (hp : s.phase = .acquire) (ha : s.acqCount = 0) (hb : s.txBusy = false)
    (hlog : s.log = []) : Contents s where
  acquired _ i hi := absurd (ha ▸ hi) (Nat.not_lt_zero i)
  encoded he := he.elim (fun h => nomatch hp.symm.trans h) (fun h => nomatch hp.symm.trans h)
  built h := nomatch hp.symm.trans h
  borrowed hb' := nomatch hb.symm.trans hb'
  logged e he := by rw [hlog] at he; exact nomatch he

/-- A halted block with an empty log has nothing the buffers have to hold. -/
theorem contents_of_halted (hp : s.phase = .halted) (hb : s.txBusy = false) (hlog : s.log = []) : Contents s where
  acquired h := nomatch hp.symm.trans h
  encoded he := he.elim (fun h => nomatch hp.symm.trans h) (fun h => nomatch hp.symm.trans h)
  built h := nomatch hp.symm.trans h
  borrowed hb' := nomatch hb.symm.trans hb'
  logged e he := by rw [hlog] at he; exact nomatch he

/-- The block held in reset, or just released: what the reset writes is safe, whatever stands in the fields it keeps. -/
theorem safe_of_reset (hl : s.cfg.legal = true) (e : t = { s.holdReset with
      inReset := t.inReset, bitOrderQ := t.bitOrderQ, inputs := t.inputs, call := t.call, result := t.result
      freeCount := t.freeCount }) : Safe t := by
  rw [e]
  exact ⟨(shape_holdReset hl).congr rfl, contents_of_empty_acquire rfl rfl rfl rfl, line_of_empty_log rfl rfl rfl⟩

/-- The CONFIG fault from such a state is safe too (R171). -/
theorem Safe.raiseFault_of_empty_log (h : Safe s) {c : Cause} (hc : c ≠ .none) (hlog : s.log = []) :
    Safe (s.raiseFault c) :=
  ⟨h.shape.raiseFault hc, contents_of_halted rfl rfl hlog, line_of_halted rfl rfl rfl⟩

end Frames

/-- Settles O36: whoever writes a buffer is at the boundary of ACQUIRE, ENCODE or FRAME, which excludes the other
phases, a transmission in flight and a halt. -/
theorem buffersWrittenOnlyInTheirPhases : Obligations.BuffersWrittenOnlyInTheirPhases := by
  intro s t h hrst hin
  rcases step_buffers h hrst hin with ⟨hfb, hpb⟩ | ⟨hpb, hp, hh, hb⟩ | ⟨hfb, ⟨hp, hh, hb⟩ | ⟨hp, hh, hb⟩⟩
  · exact ⟨fun _ => hfb, fun _ => hpb⟩
  · exact ⟨by simp [hp, hh, hb], fun _ => hpb⟩
  · exact ⟨fun _ => hfb, by simp [hp, hh, hb]⟩
  · exact ⟨fun _ => hfb, by simp [hp, hh, hb]⟩

/-- Settles O37: every instruction keeps the rule of TX_BUSY, and reset is the remaining way to clear it. -/
theorem busyFlagChangesOnlyAsStated : Obligations.BusyFlagChangesOnlyAsStated := by
  intro s t h
  rcases step_busyRule h with ⟨hset, hclear⟩ | ⟨ht, hreset⟩
  · exact ⟨hset, fun hs ht => .inr (.inr (hclear hs ht))⟩
  · exact ⟨fun _ ht' => (nomatch ht.symm.trans ht'), fun _ _ => hreset.imp_right .inl⟩

/-- Settles O31: the values State.reset writes, and an empty memory that has no slot to read. -/
theorem resetStateValues : Obligations.ResetStateValues :=
  ⟨rfl, rfl, rfl, rfl, rfl, rfl, rfl, rfl, rfl, rfl, rfl, rfl, Memory.read_nil, Memory.read_nil⟩

/-- Settles O38: the ports repeat the registers, whose codes are read off one by one; `src_ready` is the window in
which the source is sampled, which Shape opens throughout ACQUIRE. -/
theorem statusOutputsShowTheState : Obligations.StatusOutputsShowTheState := by
  intro s
  refine ⟨s.bitOrderQ.code, s.phase.code.toNat, s.faultCause.code.toNat, ?registers, ?order, ?phase, ?cause,
    rfl, rfl, rfl, rfl, outputs_dout_iff, samplesSource_iff.mp, ?ready⟩
  case registers => simp [State.controlRegisters, Bool.toNat, Bool.cond_eq_ite]
  case order => cases s.bitOrderQ <;> rfl
  case phase => cases s.phase <;> rfl
  case cause => cases s.faultCause <;> rfl
  case ready =>
    intro hs hp hin hrst
    obtain ⟨hh, hb⟩ := hs.running_of_acquire hp
    exact samplesSource_iff.mpr ⟨hp, hh, hb, hin, hrst⟩

/-- Settles O39: each of the states is what a tick in reset leaves, or the CONFIG fault raised from it, in the fields
the spec resets. -/
theorem resetIsSafe : Obligations.ResetIsSafe := by
  refine ⟨safe_of_reset (s := State.reset) (by decide) rfl, fun c o held ds w r n hl => ⟨?_, ?_⟩⟩
  · exact safe_of_reset (s := { State.reset with cfg := c }) hl rfl
  · have hsafe : Safe { State.reset with
        cfg := c, bitOrderQ := o, inputs := ds, call := w, result := r, freeCount := n } :=
      safe_of_reset (s := { State.reset with cfg := c }) hl rfl
    exact hsafe.raiseFault_of_empty_log (c := .config) (by decide) rfl

end Sys2Proof.Machine

/-! PROOFS. What the buffers and the log hold: every step keeps `Contents`, one lemma per update of the state that touches
FB, PB, PHASE or the log; and no safe state is stuck. -/

namespace Sys2Proof.Machine

/-! ### Buffers filled from the front (R24, R133, R134) -/

/-- Writing behind a span that is read makes the span longer. -/
theorem Memory.readSpan_writeSpan_append {α : Type} {m : List (Nat × α)} {a n : Nat} {us : List α}
    (h : Memory.readSpan m a n = some us) (vs : List α) :
    Memory.readSpan (Memory.writeSpan m (a + n) vs) a (n + vs.length) = some (us ++ vs) := by
  refine Memory.readSpan_append ?_ (Memory.readSpan_writeSpan m (a + n) vs)
  rw [← h]
  refine Memory.readSpan_congr n fun i _ hi => ?_
  rw [Memory.read_writeSpan, if_neg (by omega)]

theorem encodeBytes_take_succ (c : Config) (o : BitOrder) {f : List Byte} {i : Nat} {b : Byte} (hb : f[i]? = some b) :
    encodeBytes c o (f.take (i + 1)) = encodeBytes c o (f.take i) ++ encodeByte c o b := by
  rw [List.take_add_one, hb, Option.toList_some, encodeBytes_append, encodeBytes_singleton]

section Contents

variable {s t : State}

theorem frame_length {f : List Byte} (hf : s.frame = some f) : f.length = s.cfg.frameLen :=
  ((Memory.readSpan_eq_some _).mp hf).1

theorem frame_getElem? {f : List Byte} (hf : s.frame = some f) {i : Nat} (hi : i < s.cfg.frameLen) :
    f[i]? = s.readFb i := by
  have hread := ((Memory.readSpan_eq_some _).mp hf).2 i hi
  rw [Nat.zero_add] at hread
  exact hread.symm

theorem Contents.pop (h : Contents s) : Contents s.pop := h.congr rfl
theorem Contents.tick (h : Contents s) : Contents s.tick := h.congr rfl

theorem Contents.settle (h : Contents t) (s : State) : Contents (s.settle t) := by
  unfold State.settle
  split_ifs
  · exact h.congr rfl
  · exact h.tick.pop
  · exact h.pop

/-- Idle or halted the block needs nothing of its buffers; only the log still counts. -/
theorem Contents.leave_buffers (h : Contents s) (hp : t.phase = .idle ∨ t.phase = .halted) (hb : t.txBusy = false)
    (hsame : s.SameConfiguration t) (hlog : t.log = s.log) : Contents t where
  acquired hp' := by simp [hp'] at hp
  encoded hp' := by rcases hp' with hp' | hp' <;> simp [hp'] at hp
  built hp' := by simp [hp'] at hp
  borrowed hb' := nomatch hb.symm.trans hb'
  logged := by
    obtain ⟨hcfg, horder⟩ := hsame
    rw [hlog, hcfg, horder]
    exact h.logged

/-! ### Reset -/

theorem contents_releaseReset (ok : Bool) (o : BitOrder) : Contents (s.releaseReset ok o) := by
  cases ok with
  | true => exact contents_of_empty_acquire rfl rfl rfl rfl
  | false => exact contents_of_halted rfl rfl rfl

/-! ### The phases of LOOP -/

theorem Contents.failAcquire (h : Contents s) (k : Nat) : Contents (s.failAcquire k) :=
  h.leave_buffers (.inr rfl) rfl ⟨rfl, rfl⟩ rfl

theorem Contents.failTransmission (h : Contents s) : Contents s.failTransmission :=
  h.leave_buffers (.inr rfl) rfl ⟨rfl, rfl⟩ rfl

/-- ENCODE begins with a whole frame in FB and nothing to have encoded. -/
theorem encoded_at_entry {f : List Byte} (hf : s.frame = some f) (hi : s.byteIdx = 0) : ∃ f, s.frame = some f ∧
    Memory.readSpan s.pb 0 (8 * s.byteIdx) = some (encodeBytes s.cfg s.bitOrderQ (f.take s.byteIdx)) :=
  ⟨f, hf, by rw [hi]; rfl⟩

theorem Contents.takeFrame (h : Contents s) (hb : s.txBusy = false) {d : List Byte} (hd : d.length = s.cfg.frameLen) :
    Contents (s.takeFrame d) :=
  have hframe : (s.takeFrame d).frame = some d := by
    unfold State.frame
    rw [takeFrame_fb, takeFrame_cfg, ← hd]
    exact Memory.readSpan_writeSpan s.fb 0 d
  { h with
    acquired := fun hp => nomatch hp
    encoded := fun _ => encoded_at_entry hframe rfl
    built := fun hp => nomatch hp
    borrowed := fun hb' => nomatch hb.symm.trans hb' }

/-- A transfer keeps the bytes already counted and adds the next. -/
theorem Contents.acquired_takeByte (h : Contents s) (hp : s.phase = .acquire) (b : Byte) :
    ∀ i < s.acqCount + 1, ((s.takeByte b).readFb i).isSome = true := by
  intro i hi
  unfold State.readFb
  rw [takeByte_fb, Memory.read_write]
  split_ifs with hlast
  · rfl
  · exact h.acquired hp i (by omega)

theorem Contents.takeByte (h : Contents s) (hp : s.phase = .acquire) (hb : s.txBusy = false) (b : Byte) :
    Contents (s.takeByte b) :=
  have hbytes := h.acquired_takeByte hp b
  { h with
    acquired := fun _ => hbytes
    encoded := by
      rw [takeByte_phase, hp]
      split_ifs with hfull
      · rw [hfull] at hbytes
        obtain ⟨f, hf⟩ := readSpan_exists hbytes
        exact fun _ => encoded_at_entry hf (by rw [takeByte_byteIdx, if_pos hfull])
      · simp
    built := by rw [takeByte_phase, hp]; split_ifs <;> simp
    borrowed := fun hb' => nomatch hb.symm.trans hb' }

theorem Contents.encodeWindow (h : Contents s) (hp : s.phase = .encode) (hb : s.txBusy = false)
    (hi : s.byteIdx < s.cfg.frameLen) {b : Byte} (hread : s.readFb s.byteIdx = some b) : Contents (s.encodeWindow b) :=
  { h with
    acquired := by rw [encodeWindow_phase, hp]; split_ifs <;> simp
    encoded := fun _ => by
      obtain ⟨f, hf, hspan⟩ := h.encoded (.inl hp)
      have hgrown := Memory.readSpan_writeSpan_append hspan (encodeByte s.cfg s.bitOrderQ b)
      rw [encodeByte_length, Nat.zero_add, ← encodeBytes_take_succ _ _ ((frame_getElem? hf hi).trans hread)] at hgrown
      exact ⟨f, hf, hgrown⟩
    built := by rw [encodeWindow_phase, hp]; split_ifs <;> simp
    borrowed := fun hb' => nomatch hb.symm.trans hb' }

/-- FRAME completes `build_pb(FB)`: all windows are encoded, and SR goes behind them (R134, R141). -/
theorem Contents.built_closeFrame (h : Contents s) (hs : Shape s) (hp : s.phase = .frame) : ∃ f, s.frame = some f ∧
    s.closeFrame.buffer = some (buildPb s.cfg s.bitOrderQ f) := by
  obtain ⟨f, hf, hspan⟩ := h.encoded (.inr hp)
  have hslots : 8 * s.cfg.frameLen = s.cfg.lastSlot := by unfold Config.frameLen Config.lastSlot; omega
  rw [hs.byteDone hp, hslots, List.take_of_length_le (frame_length hf).le] at hspan
  have hclosed := Memory.readSpan_writeSpan_append hspan [s.cfg.symSR]
  rw [Nat.zero_add] at hclosed
  exact ⟨f, hf, hclosed⟩

theorem Contents.closeFrame (h : Contents s) (hs : Shape s) (hp : s.phase = .frame) (hb : s.txBusy = false) :
    Contents s.closeFrame :=
  { h with
    acquired := fun hp => nomatch hp
    encoded := fun hp => hp.elim nofun nofun
    built := fun _ => h.built_closeFrame hs hp
    borrowed := fun hb' => nomatch hb.symm.trans hb' }

/-- What TRANSMIT submits is built from a whole frame (R141, R146). -/
theorem Contents.submitted (h : Contents s) (hp : s.phase = .transmit) {buf : List PulseSymbol}
    (hbuf : s.buffer = some buf) :
    ∃ f : List Byte, f.length = s.cfg.frameLen ∧ buf = buildPb s.cfg s.bitOrderQ f := by
  obtain ⟨f, hf, hbuilt⟩ := h.built hp
  exact ⟨f, frame_length hf, Option.some.inj (hbuf.symm.trans hbuilt)⟩

theorem Contents.submit (h : Contents s) (hp : s.phase = .transmit) {buf : List PulseSymbol}
    (hbuf : s.buffer = some buf) : Contents (s.submit buf) :=
  { h with
    borrowed := fun _ => List.getLast?_concat.trans hbuf.symm
    logged := fun e he => (List.mem_append.mp he).elim (h.logged e)
      fun hnew => by rw [List.mem_singleton.mp hnew]; exact h.submitted hp hbuf }

theorem Contents.enterAcquire (h : Contents s) (hb : s.txBusy = false) : Contents s.enterAcquire :=
  { h with
    acquired := fun _ i hi => absurd hi (Nat.not_lt_zero i)
    encoded := fun hp => hp.elim nofun nofun
    built := fun hp => nomatch hp
    borrowed := fun hb' => nomatch hb.symm.trans hb' }

/-! ### The steps of TX: only the completion leaves TRANSMIT -/

theorem Contents.complete (h : Contents s) (hp : s.phase = .transmit) :
    Contents s.endTransmission.resumeAfterCompletion :=
  h.leave_buffers (.inl (by simp [hp])) (by simp) ⟨by simp, by simp⟩ (by simp)

/-! ### Instructions and steps -/

theorem execAcquire_keeps_contents (h : Contents s) (he : execAcquire s = .next t) : Contents t := by
  obtain ⟨⟨hp, -, hb⟩, ⟨-, rfl⟩ | ⟨-, ⟨d, -, hd, rfl⟩ | ⟨k, -, -, rfl⟩ | ⟨-, -, -, rfl⟩ | ⟨-, -, rfl⟩⟩⟩ :=
    execAcquire_cases he
  · exact (h.failAcquire _).tick
  · exact h.takeFrame hb hd
  · exact h.failAcquire k
  · exact (h.takeByte hp hb _).tick
  · exact h.tick

theorem execTransmit_keeps_contents (h : Contents s) (he : execTransmit s = .next t) : Contents t := by
  obtain ⟨⟨hp, -⟩, ⟨-, -, rfl⟩ | ⟨-, -, rfl⟩ | ⟨-, buf, hbuf, rfl⟩⟩ := execTransmit_cases he
  · exact h.failTransmission
  · exact h
  · exact h.submit hp hbuf

theorem execIdle_keeps_contents (h : Contents s) (he : execIdle s = .next t) : Contents t := by
  obtain ⟨⟨-, -, hb⟩, ⟨-, rfl⟩ | ⟨-, rfl⟩⟩ := execIdle_cases he
  · exact h.enterAcquire hb
  · exact h.congr rfl

theorem execTxEmit_keeps_contents (h : Contents s) (he : execTxEmit s = .next t) : Contents t := by
  obtain ⟨-, -, p, -, rfl⟩ := execTxEmit_cases he
  obtain ⟨-, e⟩ | ⟨-, -, e⟩ | ⟨-, -, e⟩ := emitSymbol_cases p s <;> rw [e] <;> exact h.congr rfl

theorem exec_keeps_contents {i : Instr} (hs : Shape s) (h : Contents s) (he : exec i s = .next t) : Contents t := by
  cases i with
  | acquire => exact execAcquire_keeps_contents h he
  | encode =>
    obtain ⟨⟨hp, -, hb⟩, hi, b, hread, rfl⟩ := execEncode_cases he
    exact h.encodeWindow hp hb hi hread
  | frame =>
    obtain ⟨⟨hp, -, hb⟩, rfl⟩ := execFrame_cases he
    exact h.closeFrame hs hp hb
  | transmit => exact execTransmit_keeps_contents h he
  | idle => exact execIdle_keeps_contents h he
  | halt => obtain ⟨-, rfl⟩ := execHalt_cases he; exact h
  | txEmit => exact execTxEmit_keeps_contents h he
  | txDone =>
    obtain ⟨hb, -, rfl⟩ := execTxDone_cases he
    exact h.complete (hs.busyPhase hb)
  | encodeByte o b => cases he; exact h.congr rfl
  | decodeSymbol p => cases he; exact h.congr rfl
  | s0 => cases he; exact h.congr rfl
  | s1 => cases he; exact h.congr rfl
  | sr => cases he; exact h.congr rfl

end Contents

/-- Settles O41: reset leaves nothing the buffers have to hold; a byte taken, a window encoded and SR written each
extend what was read before, the submit logs the buffer so built, and the ends of a transmission keep only the log. -/
theorem stepKeepsContents : Obligations.StepKeepsContents := by
  intro s t hs h hstep
  obtain ⟨-, ⟨-, r, rfl⟩ | ⟨-, ⟨-, rfl⟩ | ⟨-, -, rfl⟩ | ⟨-, -, -, rfl⟩ | ⟨-, -, -, u, hu, rfl⟩⟩⟩ := step_cases hstep
  · exact h.congr rfl
  · exact contents_of_empty_acquire rfl rfl rfl rfl
  · exact (contents_releaseReset _ _).pop
  · exact h.tick.pop
  · exact (exec_keeps_contents hs h hu).settle s

/-! ### A safe state always steps -/

section Progress

variable {s : State}

/-- ACQUIRE answers for whatever its source does within R131. -/
theorem acquire_answers (hs : Shape s) (hp : s.phase = .acquire)
    (ha : ∀ a, s.cur.srcAnswer = some a → a.allowed s.cfg) : ∃ t, execAcquire s = .next t := by
  have hen := (enabled_iff s .acquire).mpr ⟨hp, hs.running_of_acquire hp⟩
  unfold execAcquire
  rw [if_pos hen]
  split_ifs
  · exact ⟨_, rfl⟩
  · split
    · next a hsrc =>
      have hallowed := ha a hsrc
      cases a <;> exact ⟨_, if_pos hallowed⟩
    · unfold acquireTick
      rw [if_pos (hs.acqOpen hp)]
      split_ifs <;> exact ⟨_, rfl⟩

/-- ENCODE finds the byte at BYTE_IDX written: FB holds a whole frame (R216). -/
theorem encode_answers (hs : Shape s) (hc : Contents s) (hp : s.phase = .encode) (hh : s.halted = false)
    (hb : s.txBusy = false) : ∃ t, execEncode s = .next t := by
  obtain ⟨f, hf, -⟩ := hc.encoded (.inl hp)
  have hi := hs.byteOpen hp
  have hread := (frame_getElem? hf hi).symm.trans (List.getElem?_eq_getElem (frame_length hf ▸ hi))
  simp [execEncode, (enabled_iff s .encode).mpr ⟨hp, hh, hb⟩, hi, hread]

/-- TRANSMIT finds all of PB written, and in flight it always has an outcome (R135). -/
theorem transmit_answers (hc : Contents s) (hp : s.phase = .transmit) (hh : s.halted = false) :
    ∃ t, execTransmit s = .next t := by
  obtain ⟨f, -, hbuf⟩ := hc.built hp
  unfold execTransmit
  rw [if_pos (by simp [hp, hh]), hbuf]
  split_ifs <;> exact ⟨_, rfl⟩

theorem idle_answers (hp : s.phase = .idle) (hh : s.halted = false) (hb : s.txBusy = false) :
    ∃ t, execIdle s = .next t := by
  unfold execIdle
  rw [if_pos ((enabled_iff s .idle).mpr ⟨hp, hh, hb⟩)]
  split_ifs <;> exact ⟨_, rfl⟩

/-- TX finds the symbol it stands at written. -/
theorem txEmit_answers (hs : Shape s) (hc : Contents s) (hb : s.txBusy = true) (hi : s.symIdx ≤ s.cfg.lastSlot) :
    ∃ t, execTxEmit s = .next t := by
  obtain ⟨f, hf, hbuf⟩ := built_in_flight hs hc hb
  have hlt : s.symIdx < (buildPb s.cfg s.bitOrderQ f).length := by
    rw [bufferLen_eq_length hbuf]; exact Nat.lt_succ_of_le hi
  have hread := (buffer_getElem? hbuf hi).symm.trans (List.getElem?_eq_getElem hlt)
  simp [execTxEmit, hb, hi, hread]

/-- Past the last symbol TX stands exactly at the end of the buffer (R24). -/
theorem txDone_answers (hs : Shape s) (hb : s.txBusy = true) (hi : ¬ s.symIdx ≤ s.cfg.lastSlot) :
    ∃ t, execTxDone s = .next t := by
  have hend : s.symIdx = s.cfg.bufferLen := le_antisymm hs.symBound (Nat.lt_of_not_le hi)
  simp [execTxDone, hb, hend]

/-- The operation a running block's PHASE selects answers. -/
theorem phaseInstr_answers (hs : Shape s) (hc : Contents s) (hh : s.halted = false) (hb : s.txBusy = false)
    (ha : ∀ a, s.cur.srcAnswer = some a → a.allowed s.cfg) : ∃ t, exec (phaseInstr s.phase) s = .next t := by
  cases hp : s.phase with
  | acquire => exact acquire_answers hs hp ha
  | encode => exact encode_answers hs hc hp hh hb
  | frame => exact ⟨_, if_pos ((enabled_iff s .frame).mpr ⟨hp, hh, hb⟩)⟩
  | transmit => exact transmit_answers hc hp hh
  | idle => exact idle_answers hp hh hb
  | halted => exact nomatch hh.symm.trans (hs.haltedPhase.mpr hp)

/-- The operation the state selects meets its precondition. -/
theorem operation_answers (hs : Shape s) (hc : Contents s)
    (ha : ∀ a, s.cur.srcAnswer = some a → a.allowed s.cfg) : ∃ t, exec s.operation s = .next t := by
  unfold State.operation
  split_ifs with hh hb herr hi
  · exact ⟨s, if_pos (by simp [hh, hs.haltedPhase.mp hh])⟩
  · exact transmit_answers hc (hs.busyPhase hb) (Bool.eq_false_iff.mpr hh)
  · exact txEmit_answers hs hc hb hi
  · exact txDone_answers hs hb hi
  · exact phaseInstr_answers hs hc (Bool.eq_false_iff.mpr hh) (Bool.eq_false_iff.mpr hb) ha

end Progress

/-- Settles O43: a step in reset, at its release or in a wait has no precondition, and Shape and Contents give every
other step the precondition and the written slots its operation asks for. -/
theorem safeStatesStep : Obligations.SafeStatesStep := by
  intro s hs hcall ha
  have hl := hs.shape.legal
  cases hrst : s.cur.rst with
  | true => exact ⟨_, step_of_reset hl hcall hrst⟩
  | false =>
    cases hin : s.inReset with
    | true => exact ⟨_, step_of_release hl hcall hrst hin⟩
    | false =>
      cases hheld : s.held with
      | true => exact ⟨_, step_of_held hl hcall hrst hin hheld⟩
      | false =>
        obtain ⟨u, hu⟩ := operation_answers hs.shape hs.contents ha
        exact ⟨_, step_eq_exec hl hcall hrst hin hheld hu⟩

end Sys2Proof.Machine

/-! PROOFS. Words: the packed word of a Pulse Symbol, words in bytes, and that the decoder and the encoder are each
other's inverse, format by format. -/

namespace Sys2Proof

/-! ### Code bits (R95, R28) -/

theorem Level.code_lt_two (l : Level) : l.code < 2 := by cases l <;> decide

theorem Level.code_ofCode (n : Nat) : (Level.ofCode n).code = n % 2 := by
  unfold Level.ofCode
  split_ifs with h
  · exact h.symm
  · exact (Nat.mod_two_ne_zero.mp h).symm

theorem Level.ofCode_of_mod_two {n : Nat} {l : Level} (h : n % 2 = l.code) : Level.ofCode n = l := by
  cases l <;> simp [Level.ofCode, h, Level.code]

theorem BitOrder.ofCode_code (o : BitOrder) : BitOrder.ofCode o.code = o := by cases o <;> rfl

theorem BitOrder.code_lt_two (o : BitOrder) : o.code < 2 := by cases o <;> decide

theorem BitOrder.code_ofCode (n : Nat) : (BitOrder.ofCode n).code = n % 2 := by
  unfold BitOrder.ofCode
  split_ifs with h
  · exact h.symm
  · exact (Nat.mod_two_ne_zero.mp h).symm

/-! ### The packed word (R83) -/

theorem PulseSymbol.packs_iff {p : PulseSymbol} : p.packs = true ↔ p.d0 < 2 ^ 15 ∧ p.d1 < 2 ^ 15 := by
  simp only [PulseSymbol.packs, durationPacks, Bool.and_eq_true, decide_eq_true_eq]

/-- A symbol that packs loses no bit of its durations. -/
theorem PulseSymbol.word_of_packs {p : PulseSymbol} (h : p.packs = true) :
    p.word = p.l1.code * 2 ^ 31 + p.d1 * 2 ^ 16 + p.l0.code * 2 ^ 15 + p.d0 := by
  obtain ⟨h0, h1⟩ := PulseSymbol.packs_iff.mp h
  rw [PulseSymbol.word, Nat.mod_eq_of_lt h0, Nat.mod_eq_of_lt h1]

/-- The fields of the packed word of a symbol that packs. -/
theorem PulseSymbol.word_fields {p : PulseSymbol} (h : p.packs = true) :
    p.word < 2 ^ 32 ∧ p.word / 2 ^ 31 = p.l1.code ∧ p.word / 2 ^ 16 % 2 ^ 15 = p.d1 ∧
      p.word / 2 ^ 15 % 2 = p.l0.code ∧ p.word % 2 ^ 15 = p.d0 := by
  obtain ⟨h0, h1⟩ := PulseSymbol.packs_iff.mp h
  have hl0 := p.l0.code_lt_two
  have hl1 := p.l1.code_lt_two
  rw [PulseSymbol.word_of_packs h]
  omega

theorem PulseSymbol.word_lt (p : PulseSymbol) : p.word < 2 ^ 32 := by
  have hl0 := p.l0.code_lt_two
  have hl1 := p.l1.code_lt_two
  unfold PulseSymbol.word
  omega

/-- Reading the packed word of a symbol that packs gives the symbol back. -/
theorem symbolOfWord_word {p : PulseSymbol} (h : p.packs = true) : symbolOfWord p.word = p := by
  obtain ⟨-, hl1, hd1, hl0, hd0⟩ := PulseSymbol.word_fields h
  have hl1' : p.word / 2 ^ 31 % 2 = p.l1.code := by rw [hl1, Nat.mod_eq_of_lt p.l1.code_lt_two]
  rw [symbolOfWord, Level.ofCode_of_mod_two hl0, Level.ofCode_of_mod_two hl1', hd0, hd1]

theorem symbolOfWord_packs (w : Nat) : (symbolOfWord w).packs = true :=
  PulseSymbol.packs_iff.mpr ⟨Nat.mod_lt _ (by decide), Nat.mod_lt _ (by decide)⟩

/-- Every 32-bit word is the packed word of the symbol it holds. -/
theorem word_symbolOfWord {w : Nat} (h : w < 2 ^ 32) : (symbolOfWord w).word = w := by
  rw [PulseSymbol.word_of_packs (symbolOfWord_packs w)]
  simp only [symbolOfWord, Level.code_ofCode]
  omega

/-- Two symbols that pack have different words if they differ. -/
theorem PulseSymbol.word_ne {p q : PulseSymbol} (hp : p.packs = true) (hq : q.packs = true) (h : p ≠ q) :
    p.word ≠ q.word := fun hw =>
  h (by rw [← symbolOfWord_word hp, hw, symbolOfWord_word hq])

/-! ### Words in bytes (log 14) -/

theorem byte_ofNat_eq {n : Nat} {b : Byte} (h : n % 256 = b.toNat) : BitVec.ofNat 8 n = b :=
  BitVec.eq_of_toNat_eq ((BitVec.toNat_ofNat n 8).trans h)

theorem valueOf_lt (bs : List Byte) : valueOf bs < 256 ^ bs.length := by
  induction bs with
  | nil => decide
  | cons b bs ih =>
    have hb := b.isLt
    rw [valueOf, List.length_cons, Nat.pow_succ]
    omega

/-- Bytes are those of the number they hold. -/
theorem bytesOf_valueOf (bs : List Byte) : bytesOf bs.length (valueOf bs) = bs := by
  induction bs with
  | nil => rfl
  | cons b bs ih =>
    have hb := b.isLt
    have hhead : (b.toNat + 256 * valueOf bs) % 256 = b.toNat := by omega
    have htail : (b.toNat + 256 * valueOf bs) / 256 = valueOf bs := by omega
    rw [List.length_cons, valueOf, bytesOf, byte_ofNat_eq hhead, htail, ih]

/-! ### The decoder reads a format and a number -/

/-- What the decoder makes of the number a word of a format holds. -/
def decodeValue (c : Config) : Format → Nat → Decoded
  | .phase => decodePhase
  | .txStep => decodeTxStep
  | .encodeByte => decodeEncodeByte
  | .decodeSymbol => decodeDecodeSymbol c
  | .symbol => decodeConstant c

/-- The decoder looks at the length of a word and at the number its bytes hold. -/
theorem decode_eq (c : Config) (w : Code) : decode c w =
    if w.bytes.length = w.fmt.length then decodeValue c w.fmt (valueOf w.bytes) else .bad .wrongLength := by
  unfold decode
  cases w.fmt <;> rfl

/-- A number that a format's bytes hold is what the decoder reads from them. -/
theorem decode_bytesOf (c : Config) (fmt : Format) {v : Nat} (hv : v < 256 ^ fmt.length) :
    decode c ⟨fmt, bytesOf fmt.length v⟩ = decodeValue c fmt v := by
  rw [decode_eq, if_pos (bytesOf_length _ _), valueOf_bytesOf, Nat.mod_eq_of_lt hv]

/-- A word the decoder accepts consists of its format's bytes of a number that it accepts. -/
theorem decode_eq_ok {c : Config} {w : Code} {i : Instr} (h : decode c w = .ok i) :
    ∃ v, v < 256 ^ w.fmt.length ∧ w = ⟨w.fmt, bytesOf w.fmt.length v⟩ ∧ decodeValue c w.fmt v = .ok i := by
  rw [decode_eq] at h
  split_ifs at h with hlen
  rw [← hlen]
  exact ⟨valueOf w.bytes, valueOf_lt _, by rw [bytesOf_valueOf], h⟩

/-! ### The decoder reads what the encoder wrote -/

/-- The operand of DECODE_SYMBOL fits DUR_W (R82) and packs (R83). -/
theorem wellFormed_decodeSymbol_iff {c : Config} {p : PulseSymbol} : (Instr.decodeSymbol p).wellFormed c = true ↔
    (durationFits c p.d0 && durationFits c p.d1) = true ∧ p.packs = true := by
  simp only [Instr.wellFormed, PulseSymbol.packs, Bool.and_eq_true, and_assoc]

theorem decode_encode_encodeByte (c : Config) (o : BitOrder) (b : Byte) :
    decode c (encode c (.encodeByte o b)) = .ok (.encodeByte o b) := by
  have ho := o.code_lt_two
  have hb := b.isLt
  have hv : o.code * 256 + b.toNat < 512 := by omega
  have horder : (o.code * 256 + b.toNat) / 256 = o.code := by omega
  have hbyte : (o.code * 256 + b.toNat) % 256 = b.toNat := by omega
  calc decode c (encode c (.encodeByte o b))
    _ = decodeEncodeByte (o.code * 256 + b.toNat) := decode_bytesOf c .encodeByte (Nat.lt_trans hv (by decide))
    _ = .ok (.encodeByte o b) := by rw [decodeEncodeByte, if_pos hv, horder, BitOrder.ofCode_code, byte_ofNat_eq hbyte]

theorem decode_encode_decodeSymbol {c : Config} {p : PulseSymbol} (h : (Instr.decodeSymbol p).wellFormed c = true) :
    decode c (encode c (.decodeSymbol p)) = .ok (.decodeSymbol p) := by
  obtain ⟨hfits, hpacks⟩ := wellFormed_decodeSymbol_iff.mp h
  calc decode c (encode c (.decodeSymbol p))
    _ = decodeDecodeSymbol c p.word := decode_bytesOf c .decodeSymbol p.word_lt
    _ = .ok (.decodeSymbol p) := by rw [decodeDecodeSymbol, symbolOfWord_word hpacks, if_pos hfits]

/-- A word of format SYMBOL is decoded by its number. -/
theorem decode_symbol_word (c : Config) (p : PulseSymbol) :
    decode c ⟨.symbol, bytesOf 4 p.word⟩ = decodeConstant c p.word :=
  decode_bytesOf c .symbol p.word_lt

/-- The word of a symbol that packs is not taken for the word of another. -/
theorem packs_and_word_beq_of_ne {p q : PulseSymbol} (hp : p.packs = true) (h : p ≠ q) :
    (q.packs && p.word == q.word) = false := by
  cases hq : q.packs with
  | false => rfl
  | true => rw [Bool.true_and, beq_eq_false_iff_ne]; exact PulseSymbol.word_ne hp hq h

theorem decodeConstant_symS0 {c : Config} (h : c.symS0.packs = true) : decodeConstant c c.symS0.word = .ok .s0 := by
  simp [decodeConstant, h]

/-- S1's word is not S0's, as the High halves of the two differ (R9 (d)). -/
theorem decodeConstant_symS1 {c : Config} (hl : c.legal = true) (h : c.symS1.packs = true) :
    decodeConstant c c.symS1.word = .ok .s1 := by
  obtain ⟨-, -, -, -, -, -, -, -, -, -, -, hdistinct⟩ := (legal_iff c).mp hl
  have hS0 : c.symS1 ≠ c.symS0 := by simp [Config.symS0, Config.symS1, hdistinct]
  simp [decodeConstant, packs_and_word_beq_of_ne h hS0, h]

/-- SR's word is neither S0's nor S1's, as SR begins Low and those begin High. -/
theorem decodeConstant_symSR {c : Config} (h : c.symSR.packs = true) : decodeConstant c c.symSR.word = .ok .sr := by
  have hS0 : c.symSR ≠ c.symS0 := by simp [Config.symSR, Config.symS0]
  have hS1 : c.symSR ≠ c.symS1 := by simp [Config.symSR, Config.symS1]
  simp [decodeConstant, packs_and_word_beq_of_ne h hS0, packs_and_word_beq_of_ne h hS1, h]

/-! ### What the decoder accepts is the encoder's word, one lemma per format -/

/-- The encoder's word of `i` holds `v` in format `fmt`, and `i` is well formed. -/
def EncodesTo (c : Config) (i : Instr) (fmt : Format) (v : Nat) : Prop :=
  encode c i = ⟨fmt, bytesOf fmt.length v⟩ ∧ i.wellFormed c = true

theorem encodesTo_of_decodePhase (c : Config) {v : Nat} {i : Instr} (h : decodePhase v = .ok i) :
    EncodesTo c i .phase v := by
  unfold decodePhase at h
  split at h <;> cases h <;> exact ⟨rfl, rfl⟩

theorem encodesTo_of_decodeTxStep (c : Config) {v : Nat} {i : Instr} (h : decodeTxStep v = .ok i) :
    EncodesTo c i .txStep v := by
  unfold decodeTxStep at h
  split at h <;> cases h <;> exact ⟨rfl, rfl⟩

theorem encodesTo_of_decodeEncodeByte (c : Config) {v : Nat} {i : Instr} (h : decodeEncodeByte v = .ok i) :
    EncodesTo c i .encodeByte v := by
  unfold decodeEncodeByte at h
  split_ifs at h with hv
  cases h
  have hnumber : (BitOrder.ofCode (v / 256)).code * 256 + (BitVec.ofNat 8 v).toNat = v := by
    rw [BitOrder.code_ofCode, BitVec.toNat_ofNat]
    omega
  exact ⟨by rw [encode, hnumber]; rfl, rfl⟩

theorem encodesTo_of_decodeDecodeSymbol {c : Config} {v : Nat} {i : Instr} (hv : v < 2 ^ 32)
    (h : decodeDecodeSymbol c v = .ok i) : EncodesTo c i .decodeSymbol v := by
  unfold decodeDecodeSymbol at h
  split_ifs at h with hfits
  cases h
  exact ⟨by rw [encode, word_symbolOfWord hv]; rfl, wellFormed_decodeSymbol_iff.mpr ⟨hfits, symbolOfWord_packs v⟩⟩

theorem encodesTo_of_decodeConstant {c : Config} {v : Nat} {i : Instr} (h : decodeConstant c v = .ok i) :
    EncodesTo c i .symbol v := by
  unfold decodeConstant at h
  split_ifs at h with hS0 hS1 hSR <;> cases h
  · obtain ⟨hpacks, hv⟩ := Bool.and_eq_true_iff.mp hS0
    exact ⟨by rw [eq_of_beq hv]; rfl, hpacks⟩
  · obtain ⟨hpacks, hv⟩ := Bool.and_eq_true_iff.mp hS1
    exact ⟨by rw [eq_of_beq hv]; rfl, hpacks⟩
  · obtain ⟨hpacks, hv⟩ := Bool.and_eq_true_iff.mp hSR
    exact ⟨by rw [eq_of_beq hv]; rfl, hpacks⟩

theorem encodesTo_of_decodeValue {c : Config} {fmt : Format} {v : Nat} {i : Instr} (hv : v < 256 ^ fmt.length)
    (h : decodeValue c fmt v = .ok i) : EncodesTo c i fmt v := by
  cases fmt with
  | phase => exact encodesTo_of_decodePhase c h
  | txStep => exact encodesTo_of_decodeTxStep c h
  | encodeByte => exact encodesTo_of_decodeEncodeByte c h
  | decodeSymbol => exact encodesTo_of_decodeDecodeSymbol hv h
  | symbol => exact encodesTo_of_decodeConstant h

/-! ### Reserved phase codes (R91 (a)) -/

theorem decodePhase_reserved_iff {v : Nat} : decodePhase v = .bad .reservedPhase ↔ v = 5 ∨ v = 6 := by
  unfold decodePhase
  split <;> simp_all

/-! ### Tick counts (R87) -/

/-- `floor(t / TICK_NS + 1/2)` is the quotient of two whole numbers. -/
theorem tickCount_eq_floor {num den : Nat} (hnum : 0 < num) (hden : 0 < den) (t : Nat) :
    (tickCount num den t : ℤ) = ⌊(t : ℚ) / ((num : ℚ) / (den : ℚ)) + 1 / 2⌋ := by
  have hnum' : (num : ℚ) ≠ 0 := by exact_mod_cast hnum.ne'
  have hden' : (den : ℚ) ≠ 0 := by exact_mod_cast hden.ne'
  have hquot : (t : ℚ) / ((num : ℚ) / (den : ℚ)) + 1 / 2 = ((2 * t * den + num : ℕ) : ℚ) / ((2 * num : ℕ) : ℚ) := by
    push_cast
    field_simp
  rw [hquot, Rat.floor_natCast_div_natCast]
  rfl

end Sys2Proof

namespace Sys2Proof.Machine

/-- Settles O1: each format's number is read back from its bytes; the three symbols keep apart by R9 (d) and by the
level they begin with. -/
theorem decodeEncodeAgree : Obligations.DecodeEncodeAgree := by
  intro c i hl hwf
  cases i with
  | acquire => exact decode_acquire c
  | encode => exact decode_encode c
  | frame => exact decode_frame c
  | transmit => exact decode_transmit c
  | idle => exact decode_idle c
  | halt => exact decode_halted c
  | txEmit => rfl
  | txDone => rfl
  | encodeByte o b => exact decode_encode_encodeByte c o b
  | decodeSymbol p => exact decode_encode_decodeSymbol hwf
  | s0 => exact (decode_symbol_word c _).trans (decodeConstant_symS0 hwf)
  | s1 => exact (decode_symbol_word c _).trans (decodeConstant_symS1 hl hwf)
  | sr => exact (decode_symbol_word c _).trans (decodeConstant_symSR hwf)

/-- Settles O2: a word is determined by its format and its number, and in every format the encoder gives the number
that was read. -/
theorem encodeDecodeAgree : Obligations.EncodeDecodeAgree := by
  intro c w i h
  obtain ⟨v, hv, hw, hi⟩ := decode_eq_ok h
  obtain ⟨hencode, hwf⟩ := encodesTo_of_decodeValue hv hi
  exact ⟨hencode.trans hw.symm, hwf⟩

/-- Settles O5: the fields of the word of a symbol that packs, and both directions of the packing. -/
theorem packedWordLayout : Obligations.PackedWordLayout := by
  refine ⟨fun p h0 h1 => ?_, fun w hw => word_symbolOfWord hw⟩
  have hpacks : p.packs = true := PulseSymbol.packs_iff.mpr ⟨h0, h1⟩
  obtain ⟨hlt, hl1, hd1, hl0, hd0⟩ := PulseSymbol.word_fields hpacks
  exact ⟨hlt, hl1, hd1, hl0, hd0, symbolOfWord_word hpacks⟩

/-- Settles O3: the decoder evaluated on each word. -/
theorem sampleWordsDecode : Obligations.SampleWordsDecode :=
  ⟨rfl, rfl, rfl, rfl, rfl, rfl, rfl⟩

/-- Settles O4: the codes are read off one by one, and a phase word of one byte is decoded by that byte. -/
theorem reservedPhaseCodesRejected : Obligations.ReservedPhaseCodesRejected := by
  refine ⟨fun p => by cases p <;> decide, fun c b => ?_⟩
  have hdecode : decode c ⟨.phase, [b]⟩ = decodePhase b.toNat := rfl
  rw [hdecode, decodePhase_reserved_iff, BitVec.toNat_eq, BitVec.toNat_eq]
  rfl

/-- Settles O11: each symbol row delivers its symbol, and the three words are evaluated. -/
theorem symbolRowsReturnTheirSymbol : Obligations.SymbolRowsReturnTheirSymbol :=
  ⟨fun _ => ⟨rfl, rfl, rfl⟩, rfl, rfl, rfl⟩

/-- Settles O53: the floor is a quotient of whole numbers, and the four examples are evaluated. -/
theorem tickCountRoundsToNearest : Obligations.TickCountRoundsToNearest :=
  ⟨fun _ _ t hnum hden => tickCount_eq_floor hnum hden t, fun _ => rfl, rfl, rfl, rfl, rfl⟩

end Sys2Proof.Machine

/-! PROOFS. What a step runs, and the trace of a transmission: its ticks at completion and how many they are. -/

namespace Sys2Proof.Machine

/-! ### The instruction of a step (R90) -/

/-- A call, or a step that is neither a reset nor a wait, runs the word it fetches. -/
theorem step_eq_runDecoded {s : State} (hl : s.cfg.legal = true)
    (h : s.callPending = true ∨ (s.cur.rst = false ∧ s.inReset = false ∧ s.held = false)) :
    step s = runDecoded s (decode s.cfg s.fetch) := by
  unfold step
  rcases h with hcall | ⟨hrst, hin, hheld⟩
  · simp [hl, hcall]
  · simp [hl, hrst, hin, hheld]

/-- Settles O26: the step is what exec of the fetched word's instruction answers, with what `settle` adds to it. -/
theorem stepRunsTheDecodedInstruction : Obligations.StepRunsTheDecodedInstruction := by
  intro s hl hturn
  rw [step_eq_runDecoded hl hturn]
  refine ⟨fun i hi => ?_, fun r hr => by rw [hr, runDecoded]⟩
  rw [hi, runDecoded]
  exact ⟨fun t ht => by rw [ht]; rfl, fun r hr => by rw [hr], fun r hr => by rw [hr]⟩

/-- Settles O27: the fetched word is the one the state selects, which decodes to the state's operation. -/
theorem stateSelectsTheOperation : Obligations.StateSelectsTheOperation := by
  intro c s hcall
  rw [fetch_of_not_pending hcall, decode_selected]
  unfold State.operation
  cases s.phase <;> rfl

/-! ### The trace of a completed transmission (R94, R137) -/

/-- Settles O47: past the last symbol no tick of the waveform is to come, so the trace since the submit is all of it;
TX_DONE leaves the trace as it is. -/
theorem completedTraceIsTicksOfBuffer : Obligations.CompletedTraceIsTicksOfBuffer := by
  intro s t hs he
  obtain ⟨hb, hi, rfl⟩ := execTxDone_cases he
  obtain ⟨f, -, hbuf⟩ := built_in_flight hs.shape hs.contents hb
  obtain ⟨a, b, hw, -⟩ := hs.line.emits hb hbuf
  have hpast : s.remaining (buildPb s.cfg s.bitOrderQ f) = [] :=
    remaining_past_end (by rw [bufferLen_eq_length hbuf, hi])
  rw [State.waveform, hpast, List.append_nil] at hw
  exact ⟨_, a, b, (hs.contents.borrowed hb).trans hbuf, by simpa using hw⟩

/-! ### How many ticks a frame takes (R94) -/

/-- The windows of a frame are the symbols of its bits in the order they are transmitted. -/
theorem encodeBytes_eq_map_sym (c : Config) (o : BitOrder) (f : List Byte) :
    encodeBytes c o f = (frameBits o f).map c.sym := by
  simp only [encodeBytes, frameBits, List.map_flatMap, List.map_map]
  rfl

/-- Each bit adds the two halves of its symbol. -/
theorem ticks_map_sym_length (c : Config) (vs : List Bool) : (ticks (vs.map c.sym)).length =
    vs.count false * (c.t0h + c.t0l) + vs.count true * (c.t1h + c.t1l) := by
  induction vs with
  | nil => simp
  | cons v vs ih =>
    rw [List.map_cons, ticks_cons, List.length_append, List.length_append, List.length_replicate,
      List.length_replicate, ih]
    cases v with
    | false =>
      have hsym : (c.sym false).d0 = c.t0h ∧ (c.sym false).d1 = c.t0l := ⟨rfl, rfl⟩
      rw [hsym.1, hsym.2, List.count_cons_self, List.count_cons_of_ne (by decide)]
      ring
    | true =>
      have hsym : (c.sym true).d0 = c.t1h ∧ (c.sym true).d1 = c.t1l := ⟨rfl, rfl⟩
      rw [hsym.1, hsym.2, List.count_cons_self, List.count_cons_of_ne (by decide)]
      ring

/-- Settles O51: the ticks are those of the frame's bits, and SR adds none. -/
theorem traceLengthOfAFrame : Obligations.TraceLengthOfAFrame := by
  intro c o f h0 h1
  have hSR : ticks [c.symSR] = [] := by simp [ticks_cons, Config.symSR, h0, h1]
  rw [buildPb, ticks_append, hSR, List.append_nil, encodeBytes_eq_map_sym, ticks_map_sym_length]

end Sys2Proof.Machine

/-! PROOFS. The Pulse Encoder: a byte is the list of its transmitted bits in either order, a bit is read back from its
symbol, and so `decode_byte` inverts `encode_byte`. -/

namespace Sys2Proof

/-! ### Numbers and their bits -/

theorem natOfBits_lt (vs : List Bool) : natOfBits vs < 2 ^ vs.length := by
  induction vs with
  | nil => decide
  | cons v vs ih =>
    have hv : v.toNat * 2 ^ vs.length ≤ 1 * 2 ^ vs.length := Nat.mul_le_mul_right _ (Bool.toNat_le v)
    rw [natOfBits, List.length_cons, Nat.pow_succ]
    omega

/-- The first bit of the list is the most significant, so bit `i` is the `i`-th from the end. -/
theorem natOfBits_testBit (vs : List Bool) (i : Nat) : (natOfBits vs).testBit i = vs.reverse[i]?.getD false := by
  induction vs with
  | nil => simp [natOfBits]
  | cons v vs ih =>
    rw [natOfBits, Nat.mul_comm, Nat.testBit_two_pow_mul_add _ (natOfBits_lt vs), List.reverse_cons]
    split_ifs with hi
    · rw [ih, List.getElem?_append_left (by simpa using hi)]
    · rw [List.getElem?_append_right (by simpa using hi), List.length_reverse]
      cases i - vs.length with
      | zero => cases v <;> rfl
      | succ j => cases v <;> simp [Nat.testBit_succ]

/-! ### A byte as its transmitted bits (R89, R116) -/

/-- The bits of a byte in the order they are transmitted. -/
def transmittedBits (o : BitOrder) (b : Byte) : List Bool := (List.range 8).map (bitsel o b)

@[simp] theorem transmittedBits_length (o : BitOrder) (b : Byte) : (transmittedBits o b).length = 8 := by
  simp [transmittedBits]

theorem transmittedBits_getElem? (o : BitOrder) (b : Byte) {k : Nat} (hk : k < 8) :
    (transmittedBits o b)[k]? = some (bitsel o b k) := by
  simp [transmittedBits, hk]

theorem encodeByte_eq_map_sym (c : Config) (o : BitOrder) (b : Byte) :
    encodeByte c o b = (transmittedBits o b).map c.sym := by
  rw [transmittedBits, List.map_map]; rfl

theorem bitsel_lsbFirst_eq_msbFirst (b : Byte) {k : Nat} (hk : k < 8) :
    bitsel .lsbFirst b k = bitsel .msbFirst b (7 - k) := by
  rw [bitsel, bitsel, show 7 - (7 - k) = k by omega]

theorem transmittedBits_lsbFirst (b : Byte) : transmittedBits .lsbFirst b = (transmittedBits .msbFirst b).reverse := rfl

theorem byteOfBits_lsbFirst (vs : List Bool) : byteOfBits .lsbFirst vs = byteOfBits .msbFirst vs.reverse := rfl

/-- `b[7 - k] = v[k]`: the number's bit `7 - k` is the `k`-th from the front (R116). -/
theorem bitsel_byteOfBits_msbFirst {vs : List Bool} (hlen : vs.length = 8) {k : Nat} (hk : k < 8) :
    some (bitsel .msbFirst (byteOfBits .msbFirst vs) k) = vs[k]? := by
  have hback : vs.reverse[7 - k]? = vs[k]? := by
    rw [List.getElem?_reverse (by omega), hlen, show 8 - 1 - (7 - k) = k by omega]
  have hfits : 7 - k < 8 := by omega
  rw [bitsel, byteOfBits, BitVec.getLsbD_ofNat, natOfBits_testBit, hback, List.getElem?_eq_getElem (hlen.symm ▸ hk)]
  simp [hfits]

/-- Eight bits are those their byte transmits. -/
theorem transmittedBits_byteOfBits (o : BitOrder) {vs : List Bool} (hlen : vs.length = 8) :
    transmittedBits o (byteOfBits o vs) = vs := by
  have hmsb : ∀ ws : List Bool, ws.length = 8 → transmittedBits .msbFirst (byteOfBits .msbFirst ws) = ws := by
    refine fun ws hws => List.ext_getElem? fun k => ?_
    by_cases hk : k < 8
    · rw [transmittedBits_getElem? _ _ hk, bitsel_byteOfBits_msbFirst hws hk]
    · rw [List.getElem?_eq_none (by simpa using hk), List.getElem?_eq_none (by simpa [hws] using hk)]
  cases o with
  | msbFirst => exact hmsb vs hlen
  | lsbFirst =>
    rw [byteOfBits_lsbFirst, transmittedBits_lsbFirst, hmsb _ (by simpa using hlen), List.reverse_reverse]

/-- A byte is determined by the bits it transmits. -/
theorem transmittedBits_injective (o : BitOrder) : Function.Injective (transmittedBits o) := by
  intro b b' h
  have hbit : ∀ k < 8, bitsel o b k = bitsel o b' k := fun k hk => Option.some.inj <| by
    rw [← transmittedBits_getElem? o b hk, ← transmittedBits_getElem? o b' hk, h]
  refine BitVec.eq_of_getLsbD_eq fun i hi => ?_
  cases o with
  | msbFirst => simpa [bitsel, show 7 - (7 - i) = i by omega] using hbit (7 - i) (by omega)
  | lsbFirst => exact hbit i hi

/-! ### The reversed byte (R114) -/

/-- What `rev(b)` transmits MSB first is what `b` transmits LSB first. -/
theorem transmittedBits_msbFirst_revByte (b : Byte) :
    transmittedBits .msbFirst (revByte b) = transmittedBits .lsbFirst b :=
  transmittedBits_byteOfBits .msbFirst (vs := transmittedBits .lsbFirst b) (transmittedBits_length _ _)

theorem transmittedBits_lsbFirst_revByte (b : Byte) :
    transmittedBits .lsbFirst (revByte b) = transmittedBits .msbFirst b := by
  rw [transmittedBits_lsbFirst, transmittedBits_msbFirst_revByte, transmittedBits_lsbFirst, List.reverse_reverse]

theorem revByte_getLsbD (b : Byte) {i : Nat} (hi : i < 8) : (revByte b).getLsbD i = b.getLsbD (7 - i) :=
  Option.some.inj <| calc
    some (bitsel .lsbFirst (revByte b) i) = (transmittedBits .lsbFirst (revByte b))[i]? :=
      (transmittedBits_getElem? _ _ hi).symm
    _ = (transmittedBits .msbFirst b)[i]? := by rw [transmittedBits_lsbFirst_revByte]
    _ = some (bitsel .msbFirst b i) := transmittedBits_getElem? _ _ hi

/-! ### The bit of a symbol (R115, R117) -/

/-- The high duration of a data symbol tells its bit, because T1H differs from T0H (R9 (d)). -/
theorem sym_d0_iff {c : Config} (hl : c.legal = true) (v : Bool) :
    (v = true ↔ (c.sym v).d0 = c.t1h) ∧ (v = false ↔ (c.sym v).d0 = c.t0h) := by
  obtain ⟨-, -, -, -, -, -, -, -, -, -, -, hdistinct⟩ := (legal_iff c).mp hl
  cases v with
  | false => simpa [Config.sym, Config.symS0] using hdistinct.symm
  | true => simpa [Config.sym, Config.symS1] using hdistinct

theorem decodeSymbol_sym {c : Config} (hl : c.legal = true) (v : Bool) : decodeSymbol c (c.sym v) = some v := by
  obtain ⟨h1, h0⟩ := sym_d0_iff hl v
  cases v with
  | false => rw [decodeSymbol, if_neg (h1.not.mp (by decide)), if_pos (h0.mp rfl)]
  | true => rw [decodeSymbol, if_pos (h1.mp rfl)]

theorem decodeSymbol_eq_none {c : Config} {p : PulseSymbol} (h0 : p.d0 ≠ c.t0h) (h1 : p.d0 ≠ c.t1h) :
    decodeSymbol c p = none := by
  rw [decodeSymbol, if_neg h1, if_neg h0]

/-! ### The bits of a sequence of symbols (R116) -/

theorem decodeBits_eq_some_iff {c : Config} {ps : List PulseSymbol} {vs : List Bool} :
    decodeBits c ps = some vs ↔ ps.map (decodeSymbol c) = vs.map some := by
  induction ps generalizing vs with
  | nil => cases vs <;> simp [decodeBits]
  | cons p ps ih =>
    rw [decodeBits]
    cases vs with
    | nil => split <;> simp
    | cons v vs =>
      rw [List.map_cons, List.map_cons, List.cons.injEq, ← ih]
      split
      · next hp hps => simp [hp, hps]
      · next hnone => simpa using hnone v vs

theorem decodeBits_eq_none_iff {c : Config} {ps : List PulseSymbol} :
    decodeBits c ps = none ↔ ∃ p ∈ ps, decodeSymbol c p = none := by
  induction ps with
  | nil => simp [decodeBits]
  | cons p ps ih =>
    rw [decodeBits, List.exists_mem_cons_iff, ← ih]
    cases decodeSymbol c p <;> cases decodeBits c ps <;> simp

theorem decodeBits_map_sym {c : Config} (hl : c.legal = true) (vs : List Bool) :
    decodeBits c (vs.map c.sym) = some vs := by
  rw [decodeBits_eq_some_iff, List.map_map]
  exact List.map_congr_left fun v _ => decodeSymbol_sym hl v

/-! ### decode_byte (R116) -/

theorem decodeByte_eq_none_iff {c : Config} {o : BitOrder} {seq : List PulseSymbol} (hlen : seq.length = 8) :
    decodeByte c o seq = none ↔ decodeBits c seq = none := by
  rw [decodeByte, if_pos hlen]
  cases decodeBits c seq <;> simp

/-- `decode_byte` answers the byte whose transmitted bits the eight symbols carry. -/
theorem decodeByte_eq_some_iff {c : Config} {o : BitOrder} {seq : List PulseSymbol} {b : Byte} :
    decodeByte c o seq = some b ↔ seq.length = 8 ∧ decodeBits c seq = some (transmittedBits o b) := by
  rw [decodeByte]
  split_ifs with hlen
  · cases hbits : decodeBits c seq with
    | none => simp
    | some vs =>
      have hvs : vs.length = 8 := by simpa [hlen] using (congrArg List.length (decodeBits_eq_some_iff.mp hbits)).symm
      have hback := transmittedBits_byteOfBits o hvs
      rw [Option.some.injEq, Option.some.injEq, ← (transmittedBits_injective o).eq_iff, hback]
      exact (and_iff_right hlen).symm
  · simp [hlen]

/-- Symbols made in one order are read in another as the byte that transmits the same bits there. -/
theorem decodeByte_encodeByte {c : Config} (hl : c.legal = true) {o o' : BitOrder} {b b' : Byte}
    (h : transmittedBits o b = transmittedBits o' b') : decodeByte c o' (encodeByte c o b) = some b' :=
  decodeByte_eq_some_iff.mpr ⟨encodeByte_length c o b, by rw [encodeByte_eq_map_sym, decodeBits_map_sym hl, h]⟩

end Sys2Proof

namespace Sys2Proof.Machine

/-- Settles O7: `encode_byte` maps `sym` over the transmitted bits, and the orders transmit each other's reversed. -/
theorem encodeByteInEachOrder : Obligations.EncodeByteInEachOrder := by
  refine fun c b => ⟨rfl, rfl, fun i hi => revByte_getLsbD b hi, ?_, fun k hk => ?_⟩
  · rw [encodeByte_eq_map_sym, encodeByte_eq_map_sym, transmittedBits_msbFirst_revByte]
  · rw [encodeByte_getElem? c _ b hk, encodeByte_getElem? c _ b (by omega), bitsel_lsbFirst_eq_msbFirst b hk]

/-- Settles O9: an answer of `decode_byte` is the byte whose transmitted bits the symbols carry. -/
theorem byteRoundTrip : Obligations.ByteRoundTrip := by
  intro c hl
  refine ⟨fun o seq hlen => (decodeByte_eq_none_iff hlen).trans decodeBits_eq_none_iff, fun o seq b h => ?_,
    fun b => ⟨fun o => decodeByte_encodeByte hl rfl, ?_, ?_⟩⟩
  · obtain ⟨hlen, hbits⟩ := decodeByte_eq_some_iff.mp h
    refine ⟨hlen, fun k p hp => ?_⟩
    have hk : k < 8 := hlen ▸ (List.getElem?_eq_some_iff.mp hp).1
    have hmaps := congrArg (·[k]?) (decodeBits_eq_some_iff.mp hbits)
    simpa [hp, transmittedBits_getElem? o b hk] using hmaps
  · exact decodeByte_encodeByte hl (transmittedBits_lsbFirst_revByte b).symm
  · exact decodeByte_encodeByte hl (transmittedBits_msbFirst_revByte b).symm

/-- Settles O10: the `k`-th symbol is that of the `k`-th transmitted bit, and `decode_byte` is a left inverse. -/
theorem bitPropertyOfEncoder : Obligations.BitPropertyOfEncoder := by
  refine fun c o hl => ⟨encodeByte_length c o, fun b k p hk hp => ?_, fun b b' h => Option.some.inj ?_⟩
  · obtain rfl : c.sym (bitsel o b k) = p := Option.some.inj ((encodeByte_getElem? c o b hk).symm.trans hp)
    exact sym_d0_iff hl _
  · calc some b = decodeByte c o (encodeByte c o b) := (decodeByte_encodeByte hl rfl).symm
      _ = decodeByte c o (encodeByte c o b') := by rw [h]
      _ = some b' := decodeByte_encodeByte hl rfl

/-- Settles O6: ENCODE_BYTE delivers `encode_byte`'s list, whose members are S0 and S1. -/
theorem encodeByteReturnsEightSymbols : Obligations.EncodeByteReturnsEightSymbols := by
  refine fun s o b => ⟨encodeByte s.cfg o b, rfl, encodeByte_length s.cfg o b,
    fun k hk => encodeByte_getElem? s.cfg o b hk, fun p hp => ?_⟩
  obtain rfl | rfl := mem_encodeByte hp <;> exact ⟨rfl, rfl⟩

/-- Settles O8: DECODE_SYMBOL delivers `decode_symbol`'s answer; S0 and S1 are the symbols of 0 and 1, and SR has
neither high duration. -/
theorem decodeSymbolReturnsBit : Obligations.DecodeSymbolReturnsBit :=
  fun _ _ => ⟨rfl, fun hl => ⟨decodeSymbol_sym hl false, decodeSymbol_sym hl true,
    fun h0 h1 => decodeSymbol_eq_none h0 h1⟩⟩

end Sys2Proof.Machine

/-! PROOFS. The operations at their boundary: one equation per outcome of a meaning, and from these what the phases and
TX do in one step and where they stop. -/

namespace Sys2Proof.Machine

section Operations

variable {s : State}

/-! ### LOOP at the boundary of a phase (R132 to R139) -/

theorem State.atBoundary.enabled {p : Phase} (h : s.atBoundary p) : s.enabled p = true := (enabled_iff s p).mpr h

theorem not_enabled_of_not_boundary {p : Phase} (h : ¬ s.atBoundary p) : ¬ s.enabled p = true :=
  fun he => h ((enabled_iff s p).mp he)

theorem exec_acquire_of_fail (h : s.atBoundary .acquire) (hf : s.cur.srcFail = true) :
    exec .acquire s = .next (s.failAcquire s.acqCount).tick := by
  simp [exec, execAcquire, h.enabled, hf]

theorem exec_acquire_of_answer (h : s.atBoundary .acquire) (hf : s.cur.srcFail = false) {a : SrcAnswer}
    (ha : s.cur.srcAnswer = some a) : exec .acquire s = acquireAnswer a s := by
  simp [exec, execAcquire, h.enabled, hf, ha]

theorem exec_acquire_of_ports (h : s.atBoundary .acquire) (hf : s.cur.srcFail = false)
    (ha : s.cur.srcAnswer = none) : exec .acquire s = acquireTick s := by
  simp [exec, execAcquire, h.enabled, hf, ha]

theorem exec_acquire_of_full (h : s.atBoundary .acquire) (hf : s.cur.srcFail = false) {d : List Byte}
    (ha : s.cur.srcAnswer = some (.full d)) (hd : d.length = s.cfg.frameLen) :
    exec .acquire s = .next (s.takeFrame d) :=
  (exec_acquire_of_answer h hf ha).trans (if_pos hd)

/-- A short read and a stream error after `k` bytes have one outcome (R132). -/
theorem exec_acquire_of_failed_answer (h : s.atBoundary .acquire) (hf : s.cur.srcFail = false) {k : Nat}
    (hk : k < s.cfg.frameLen) (ha : s.cur.srcAnswer = some (.short k) ∨ s.cur.srcAnswer = some (.error k)) :
    exec .acquire s = .next (s.failAcquire k) := by
  rcases ha with ha | ha <;> exact (exec_acquire_of_answer h hf ha).trans (if_pos hk)

/-- An answer R131 does not allow is refused (log 4). -/
theorem acquireAnswer_of_not_allowed {a : SrcAnswer} (h : ¬ a.allowed s.cfg) :
    acquireAnswer a s = .refused (.sourceContract a) := by
  cases a <;> exact if_neg h

theorem exec_encode_of_read (h : s.atBoundary .encode) (hi : s.byteIdx < s.cfg.frameLen) {b : Byte}
    (hb : s.readFb s.byteIdx = some b) : exec .encode s = .next (s.encodeWindow b) := by
  simp [exec, execEncode, h.enabled, hi, hb]

theorem exec_frame_of_boundary (h : s.atBoundary .frame) : exec .frame s = .next s.closeFrame := if_pos h.enabled

theorem exec_transmit_of_buffer (h : s.atBoundary .transmit) {buf : List PulseSymbol} (hbuf : s.buffer = some buf) :
    exec .transmit s = .next (s.submit buf) := by
  obtain ⟨hp, hh, hb⟩ := h
  simp [exec, execTransmit, hp, hh, hb, hbuf]

theorem exec_transmit_in_flight (hp : s.phase = .transmit) (hh : s.halted = false) (hb : s.txBusy = true) :
    exec .transmit s = if s.cur.txErr then .next s.failTransmission else .next s := by
  simp [exec, execTransmit, hp, hh, hb]

theorem exec_idle_of_count (h : s.atBoundary .idle) (hz : s.idleCnt ≠ 0) : exec .idle s = .next s.countDown := by
  simp [exec, execIdle, h.enabled, hz]

theorem exec_idle_of_zero (h : s.atBoundary .idle) (hz : s.idleCnt = 0) : exec .idle s = .next s.enterAcquire := by
  simp [exec, execIdle, h.enabled, hz]

/-! ### TX (R137, R138) -/

theorem exec_txEmit_of_read (hb : s.txBusy = true) (hi : s.symIdx ≤ s.cfg.lastSlot) {p : PulseSymbol}
    (hp : s.readPb s.symIdx = some p) : exec .txEmit s = .next (emitSymbol p s) := by
  simp [exec, execTxEmit, hb, hi, hp]

theorem emitSymbol_of_ticksLeft {p : PulseSymbol} (ht : s.ticksLeft ≠ 0) :
    emitSymbol p s = s.drive (p.level s.half) := if_neg ht

theorem emitSymbol_of_first {p : PulseSymbol} (ht : s.ticksLeft = 0) (hh : s.half = .first) :
    emitSymbol p s = s.toSecondHalf p := by
  simp [emitSymbol, ht, hh]

theorem emitSymbol_of_second {p : PulseSymbol} (ht : s.ticksLeft = 0) (hh : s.half = .second) :
    emitSymbol p s = s.toNextSymbol := by
  simp [emitSymbol, ht, hh]

/-- TX_DONE in TRANSMIT completes the transmission and LOOP goes on to IDLE (R135, R138). -/
theorem exec_txDone_of_transmit (hb : s.txBusy = true) (hi : s.symIdx = s.cfg.bufferLen) (hp : s.phase = .transmit) :
    exec .txDone s = .next s.endTransmission.enterIdle := by
  have hresume : s.endTransmission.resumeAfterCompletion = s.endTransmission.enterIdle := if_pos hp
  simp [exec, execTxDone, hb, hi, hresume]

/-- DOUT at the start of symbol `j`: Low past the last one, else by the level the symbol begins with (R29). -/
theorem doutAtSymbol_of_read {j : Nat} {q : PulseSymbol} (hq : s.readPb j = some q) :
    s.doutAtSymbol j = doutEntering q.l0 s.dout := by
  simp [State.doutAtSymbol, hq]

theorem doutAtSymbol_of_none {j : Nat} (hn : s.readPb j = none) : s.doutAtSymbol j = .low := by
  simp [State.doutAtSymbol, hn]

/-! ### Reads after the writes of a phase -/

theorem frame_takeFrame {d : List Byte} (hd : d.length = s.cfg.frameLen) : (s.takeFrame d).frame = some d := by
  rw [State.frame, takeFrame_cfg, takeFrame_fb, ← hd]
  exact Memory.readSpan_writeSpan s.fb 0 d

/-- The slots the frame does not reach keep what they held. -/
theorem readFb_takeFrame_outside {d : List Byte} {i : Nat} (hi : d.length ≤ i) :
    (s.takeFrame d).readFb i = s.readFb i := by
  rw [State.readFb, takeFrame_fb, Memory.read_writeSpan, if_neg (by omega), State.readFb]

theorem readPb_encodeWindow_inside (b : Byte) {k : Nat} (hk : k < 8) :
    (s.encodeWindow b).readPb (8 * s.byteIdx + k) = some (s.cfg.sym (bitsel s.bitOrderQ b k)) := by
  rw [State.readPb, encodeWindow_pb, Memory.read_writeSpan, encodeByte_length, if_pos (by omega),
    Nat.add_sub_cancel_left, encodeByte_getElem? _ _ _ hk]

theorem readPb_encodeWindow_outside (b : Byte) {j : Nat} (hj : j < 8 * s.byteIdx ∨ 8 * s.byteIdx + 8 ≤ j) :
    (s.encodeWindow b).readPb j = s.readPb j := by
  rw [State.readPb, encodeWindow_pb, Memory.read_writeSpan, encodeByte_length, if_neg (by omega), State.readPb]

end Operations

/-! ### One step of each operation -/

/-- Settles O12: the answer is written whole from slot 0, and nothing else but the counters and PHASE is. -/
theorem acquireTakesWholeFrame : Obligations.AcquireTakesWholeFrame := by
  intro s d h hf ha hd
  exact ⟨_, exec_acquire_of_full h hf ha hd, frame_takeFrame hd, rfl, fun i hi => readFb_takeFrame_outside (hd ▸ hi)⟩

/-- Settles O13: a tick with a byte is the transfer, one without only passes. -/
theorem acquireTakesOneTick : Obligations.AcquireTakesOneTick := by
  intro s h hf ha
  rw [exec_acquire_of_ports h hf ha, acquireTick]
  obtain ⟨hp, -, -⟩ := h
  refine ⟨fun hv => by rw [hv]; rfl, fun hv hi => ⟨(s.takeByte s.cur.srcData).tick, ?_, ?_, fun i hi => ?_, ?_⟩⟩
  · rw [hv, if_pos rfl, if_pos hi]
  · exact Memory.read_write_same s.fb s.acqCount s.cur.srcData
  · exact Memory.read_write_other s.fb s.cur.srcData hi
  · rw [← hp]; rfl

/-- Settles O14: both failing answers are the SOURCE fault entry with ACQ_COUNT at their `k`. -/
theorem failedReadTakesSourceFault : Obligations.FailedReadTakesSourceFault := by
  intro s k h hf hk ha
  exact ⟨_, exec_acquire_of_failed_answer h hf hk ha, rfl⟩

/-- Settles O16: the eight slots of the window are the ones written. -/
theorem encodeWritesOneWindow : Obligations.EncodeWritesOneWindow := by
  intro s b h hi hb
  refine ⟨_, exec_encode_of_read h hi hb, fun k hk => readPb_encodeWindow_inside b hk,
    fun j hj => readPb_encodeWindow_outside b hj, ?_⟩
  obtain ⟨hp, -, -⟩ := h
  rw [← hp]; rfl

/-- Settles O17: the write of SR to slot 24N. -/
theorem frameWritesResetSymbol : Obligations.FrameWritesResetSymbol := by
  intro s h
  exact ⟨_, exec_frame_of_boundary h, Memory.read_write_same s.pb s.cfg.lastSlot s.cfg.symSR,
    fun j hj => Memory.read_write_other s.pb s.cfg.symSR hj, rfl⟩

/-- Settles O18: the submit; the first symbol of the buffer is the one in slot 0. -/
theorem transmitSubmitsWholeBuffer : Obligations.TransmitSubmitsWholeBuffer := by
  intro s buf h hbuf
  exact ⟨_, exec_transmit_of_buffer h hbuf, rfl, fun p hp => firstTicks_of_buffer hbuf hp⟩

/-- Settles O19: the fault keeps the trace up to the mark, and without an error the await goes on. -/
theorem transmitFaultsOnErrorElseWaits : Obligations.TransmitFaultsOnErrorElseWaits := by
  intro s hp hh hb
  rw [exec_transmit_in_flight hp hh hb]
  refine ⟨fun hx => ⟨s.failTransmission, if_pos hx, rfl, fun hm => ?_⟩, fun hx => by simp [hx]⟩
  have hlen : (s.trace.take s.txMark).length = s.txMark := List.length_take_of_le hm
  rw [failTransmission_trace, List.take_left' hlen]

/-- Settles O20: the two outcomes of IDLE. -/
theorem idleCountsDownThenAcquires : Obligations.IdleCountsDownThenAcquires := by
  intro s h
  exact ⟨exec_idle_of_count h, exec_idle_of_zero h⟩

/-- Settles O23: TX_EMIT on a symbol it reads is a tick of the present half, the move to half 1 or the move to the next
symbol, by TICKS_LEFT and HALF. -/
theorem txEmitDrivesThePresentHalf : Obligations.TxEmitDrivesThePresentHalf := by
  intro s p hb hi hp
  rw [exec_txEmit_of_read hb hi hp]
  refine ⟨fun ht hh => ?_, fun ht hh => ?_, fun ht hh => ?_, fun ht hh => ⟨s.toNextSymbol, ?_, rfl, ?_, ?_⟩⟩
  · have hlevel : p.level s.half = p.l0 := by rw [hh]; rfl
    rw [emitSymbol_of_ticksLeft ht, hlevel]; rfl
  · have hlevel : p.level s.half = p.l1 := by rw [hh]; rfl
    rw [emitSymbol_of_ticksLeft ht, hlevel]; rfl
  · rw [emitSymbol_of_first ht hh]; rfl
  · rw [emitSymbol_of_second ht hh]
  · exact doutAtSymbol_of_none
  · exact fun q hq => ⟨firstTicks_of_readPb hq, doutAtSymbol_of_read hq⟩

/-- Settles O24: TX_DONE ends the transmission and LOOP's await resolves into IDLE. -/
theorem txDoneCompletesTheTransmission : Obligations.TxDoneCompletesTheTransmission := by
  intro s hb hi hp
  exact exec_txDone_of_transmit hb hi hp

/-- Settles O25: the faults are the reads of unwritten slots and the two indices outside FB; the refusals are the
negated preconditions and the answers R131 does not allow. -/
theorem operationsStopByName : Obligations.OperationsStopByName := by
  intro s
  refine ⟨fun h hi hn => ?_, fun h hi => ?_, fun h hn => ?_, fun hb hi hn => ?_, fun h hf ha hv hi => ?_,
    fun h => if_neg (not_enabled_of_not_boundary h), fun h => if_neg (not_enabled_of_not_boundary h),
    fun h => if_neg (not_enabled_of_not_boundary h), fun h => if_neg (by simpa using h),
    fun h => if_neg (not_enabled_of_not_boundary h), fun h => if_neg (by simpa using h),
    fun h => if_neg (by simpa using h), fun h => if_neg (by simpa using h), fun a h hf ha hnot => ?_⟩
  · simp [exec, execEncode, h.enabled, hi, hn]
  · simp [exec, execEncode, h.enabled, Nat.not_lt.mpr hi]
  · obtain ⟨hp, hh, hb⟩ := h
    simp [exec, execTransmit, hp, hh, hb, hn]
  · simp [exec, execTxEmit, hb, hi, hn]
  · rw [exec_acquire_of_ports h hf ha]
    simp [acquireTick, hv, Nat.not_lt.mpr hi]
  · rw [exec_acquire_of_answer h hf ha, acquireAnswer_of_not_allowed hnot]

end Sys2Proof.Machine

/-! PROOFS. Frames and waveforms: `decode_pb` inverts `build_pb`, the buffer of an all-zero frame, and one rising edge
for each bit. -/

namespace Sys2Proof

/-! ### Decoding a built buffer (R145) -/

theorem encodeBytes_cons (c : Config) (o : BitOrder) (b : Byte) (f : List Byte) :
    encodeBytes c o (b :: f) = encodeByte c o b ++ encodeBytes c o f := List.flatMap_cons

/-- The windows of a frame decode to its bytes, whatever follows them. -/
theorem decodeWindows_encodeBytes {c : Config} (hl : c.legal = true) (o : BitOrder) (f : List Byte)
    (rest : List PulseSymbol) : decodeWindows c o f.length (encodeBytes c o f ++ rest) = some f := by
  induction f with
  | nil => rfl
  | cons b f ih =>
    have hlen : (encodeByte c o b).length = 8 := encodeByte_length c o b
    rw [encodeBytes_cons, List.append_assoc, List.length_cons, decodeWindows, List.take_left' hlen,
      List.drop_left' hlen, decodeByte_encodeByte hl rfl, ih]

theorem decodePb_encodeBytes {c : Config} (hl : c.legal = true) (o : BitOrder) {f : List Byte}
    (hf : f.length = c.frameLen) (rest : List PulseSymbol) : decodePb c o (encodeBytes c o f ++ rest) = some f := by
  rw [decodePb, ← hf, decodeWindows_encodeBytes hl]

/-! ### The all-zero frame (R144) -/

theorem encodeByte_zero (c : Config) (o : BitOrder) : encodeByte c o 0#8 = List.replicate 8 c.symS0 := by
  cases o <;> rfl

theorem encodeBytes_zero (c : Config) (o : BitOrder) (n : Nat) :
    encodeBytes c o (List.replicate n 0#8) = List.replicate (8 * n) c.symS0 := by
  induction n with
  | zero => rfl
  | succ n ih =>
    rw [List.replicate_succ, encodeBytes_cons, encodeByte_zero, ih, List.replicate_append_replicate,
      Nat.mul_succ, Nat.add_comm]

theorem eight_mul_frameLen (c : Config) : 8 * c.frameLen = c.lastSlot := by
  unfold Config.frameLen Config.lastSlot
  omega

end Sys2Proof

namespace Sys2Proof.Machine

/-! ### Rising edges (R137) -/

theorem risingEdges_replicate (l : Level) (n : Nat) (t : List Level) :
    risingEdges l (List.replicate n l ++ t) = risingEdges l t := by
  induction n with
  | zero => rfl
  | succ n ih => cases l <;> exact ih

/-- A High pulse on a Low line rises once. -/
theorem risingEdges_pulse {n m : Nat} (hn : n ≠ 0) (hm : m ≠ 0) (t : List Level) :
    risingEdges .low (List.replicate n .high ++ (List.replicate m .low ++ t)) = 1 + risingEdges .low t := by
  obtain ⟨n, rfl⟩ := Nat.exists_eq_succ_of_ne_zero hn
  obtain ⟨m, rfl⟩ := Nat.exists_eq_succ_of_ne_zero hm
  rw [List.replicate_succ, List.cons_append, risingEdges, risingEdges_replicate, List.replicate_succ,
    List.cons_append, risingEdges, risingEdges_replicate]

/-- Both halves of a data symbol last at least a tick (R9 (c)), the first High and the second Low. -/
theorem sym_is_pulse {c : Config} (hl : c.legal = true) (v : Bool) :
    (c.sym v).l0 = .high ∧ (c.sym v).l1 = .low ∧ (c.sym v).d0 ≠ 0 ∧ (c.sym v).d1 ≠ 0 := by
  obtain ⟨-, -, -, -, -, ⟨h0h, -⟩, ⟨h0l, -⟩, ⟨h1h, -⟩, ⟨h1l, -⟩, -⟩ := (legal_iff c).mp hl
  cases v with
  | false => exact ⟨rfl, rfl, Nat.one_le_iff_ne_zero.mp h0h, Nat.one_le_iff_ne_zero.mp h0l⟩
  | true => exact ⟨rfl, rfl, Nat.one_le_iff_ne_zero.mp h1h, Nat.one_le_iff_ne_zero.mp h1l⟩

theorem risingEdges_ticks_map_sym {c : Config} (hl : c.legal = true) (vs : List Bool) (t : List Level) :
    risingEdges .low (ticks (vs.map c.sym) ++ t) = vs.length + risingEdges .low t := by
  induction vs with
  | nil => simp
  | cons v vs ih =>
    obtain ⟨hl0, hl1, hd0, hd1⟩ := sym_is_pulse hl v
    rw [List.map_cons, ticks_cons, hl0, hl1, List.append_assoc, List.append_assoc, risingEdges_pulse hd0 hd1, ih,
      List.length_cons]
    omega

theorem frameBits_length (o : BitOrder) (f : List Byte) : (frameBits o f).length = 8 * f.length := by
  rw [← encodeBytes_length Config.reference o f, encodeBytes_eq_map_sym, List.length_map]

/-- SR never leaves Low (R86). -/
theorem risingEdges_ticks_symSR (c : Config) : risingEdges .low (ticks [c.symSR]) = 0 := by
  have hticks : ticks [c.symSR] = List.replicate c.rst0 .low ++ (List.replicate c.rst1 .low ++ []) := by
    rw [ticks_cons, ticks_nil, List.append_assoc]; rfl
  rw [hticks, risingEdges_replicate, risingEdges_replicate, risingEdges]

/-- Settles O49: each window decodes to its byte, and the last slot is outside the windows. -/
theorem frameRoundTrip : Obligations.FrameRoundTrip := by
  intro c o f hl hf
  have hback : ∀ {g : List Byte}, g.length = c.frameLen → decodePb c o (buildPb c o g) = some g :=
    fun hg => decodePb_encodeBytes hl o hg _
  refine ⟨hback hf, fun p => decodePb_encodeBytes hl o hf _, fun g hg heq => Option.some.inj ?_⟩
  rw [← hback hf, heq, hback hg]

/-- Settles O50: every bit of a zero byte is 0 in either order, and one LED has 24 bits. -/
theorem zeroFrameIsAllZeroSymbols : Obligations.ZeroFrameIsAllZeroSymbols := by
  refine ⟨fun c o => ?_, fun c o f hc hf => ?_⟩
  · rw [buildPb, encodeBytes_zero, eight_mul_frameLen]; rfl
  · rw [buildPb_length c o hf, Config.bufferLen, hc]

/-- Settles O52: each bit is one pulse, by induction over the bits of the frame, and SR adds no edge. -/
theorem oneRisingEdgePerBit : Obligations.OneRisingEdgePerBit := by
  intro c o f hl hf
  rw [buildPb, ticks_append, encodeBytes_eq_map_sym, risingEdges_ticks_map_sym hl, risingEdges_ticks_symSR,
    frameBits_length, hf, eight_mul_frameLen, Nat.add_zero, Config.lastSlot]

end Sys2Proof.Machine

/-! PROOFS. The loop and the submission log: which phase follows which, who submits, and what every log entry is. -/

namespace Sys2Proof.Machine

section Loop

variable {s t : State}

/-! ### The order of the phases (R130, R140) -/

/-- `t` is in the phase of `s`, in the next of the loop, or halted from a phase that can halt. -/
def State.PhaseFollows (s t : State) : Prop :=
  t.phase = s.phase ∨ t.phase = nextPhase s.phase ∨
    (t.phase = .halted ∧ t.halted = true ∧ (s.phase = .acquire ∨ s.phase = .transmit))

theorem phaseFollows_of_next {p : Phase} (hs : s.phase = p) (ht : t.phase = nextPhase p) : s.PhaseFollows t :=
  .inr (.inl (by rw [ht, hs]))

theorem execAcquire_phaseFollows (he : execAcquire s = .next t) : s.PhaseFollows t := by
  obtain ⟨⟨hp, -, -⟩, ⟨-, rfl⟩ | ⟨-, ⟨d, -, -, rfl⟩ | ⟨k, -, -, rfl⟩ | ⟨-, -, -, rfl⟩ | ⟨-, -, rfl⟩⟩⟩ :=
    execAcquire_cases he
  · exact .inr (.inr ⟨rfl, rfl, .inl hp⟩)
  · exact phaseFollows_of_next hp rfl
  · exact .inr (.inr ⟨rfl, rfl, .inl hp⟩)
  · by_cases hlast : s.acqCount + 1 = s.cfg.frameLen
    · exact phaseFollows_of_next hp (if_pos hlast)
    · exact .inl (if_neg hlast)
  · exact .inl rfl

theorem execEncode_phaseFollows (he : execEncode s = .next t) : s.PhaseFollows t := by
  obtain ⟨⟨hp, -, -⟩, -, b, -, rfl⟩ := execEncode_cases he
  by_cases hlast : s.byteIdx + 1 = s.cfg.frameLen
  · exact phaseFollows_of_next hp (if_pos hlast)
  · exact .inl (if_neg hlast)

theorem execTransmit_phaseFollows (he : execTransmit s = .next t) : s.PhaseFollows t := by
  obtain ⟨⟨hp, -⟩, ⟨-, -, rfl⟩ | ⟨-, -, rfl⟩ | ⟨-, buf, -, rfl⟩⟩ := execTransmit_cases he
  · exact .inr (.inr ⟨rfl, rfl, .inr hp⟩)
  · exact .inl rfl
  · exact .inl rfl

theorem execIdle_phaseFollows (he : execIdle s = .next t) : s.PhaseFollows t := by
  obtain ⟨⟨hp, -, -⟩, ⟨-, rfl⟩ | ⟨-, rfl⟩⟩ := execIdle_cases he
  · exact phaseFollows_of_next hp rfl
  · exact .inl rfl

theorem execTxEmit_phaseFollows (he : execTxEmit s = .next t) : s.PhaseFollows t := by
  obtain ⟨-, -, p, -, rfl⟩ := execTxEmit_cases he
  obtain ⟨-, e⟩ | ⟨-, -, e⟩ | ⟨-, -, e⟩ := emitSymbol_cases p s <;> rw [e] <;> exact .inl rfl

/-- A completion takes LOOP on only from its await in TRANSMIT. -/
theorem execTxDone_phaseFollows (he : execTxDone s = .next t) : s.PhaseFollows t := by
  obtain ⟨-, -, rfl⟩ := execTxDone_cases he
  by_cases hp : s.phase = .transmit
  · exact phaseFollows_of_next hp (by simp [hp, nextPhase])
  · exact .inl (by simp [hp])

theorem exec_phaseFollows {i : Instr} (he : exec i s = .next t) : s.PhaseFollows t := by
  cases i with
  | acquire => exact execAcquire_phaseFollows he
  | encode => exact execEncode_phaseFollows he
  | frame =>
    obtain ⟨⟨hp, -, -⟩, rfl⟩ := execFrame_cases he
    exact phaseFollows_of_next hp rfl
  | transmit => exact execTransmit_phaseFollows he
  | idle => exact execIdle_phaseFollows he
  | halt => obtain ⟨-, rfl⟩ := execHalt_cases he; exact .inl rfl
  | txEmit => exact execTxEmit_phaseFollows he
  | txDone => exact execTxDone_phaseFollows he
  | encodeByte o b => cases he; exact .inl rfl
  | decodeSymbol p => cases he; exact .inl rfl
  | s0 => cases he; exact .inl rfl
  | s1 => cases he; exact .inl rfl
  | sr => cases he; exact .inl rfl

theorem State.PhaseFollows.settle (h : s.PhaseFollows t) : s.PhaseFollows (s.settle t) := by
  unfold State.settle
  split_ifs <;> exact h

/-! ### Who writes the submission log (R135) -/

/-- An instruction that changes the log is TRANSMIT submitting at its boundary. -/
theorem exec_log {i : Instr} (he : exec i s = .next t) :
    t.log = s.log ∨ (s.atBoundary .transmit ∧ ∃ buf, s.buffer = some buf ∧ t = s.submit buf) := by
  cases i with
  | acquire =>
    obtain ⟨-, ⟨-, rfl⟩ | ⟨-, ⟨d, -, -, rfl⟩ | ⟨k, -, -, rfl⟩ | ⟨-, -, -, rfl⟩ | ⟨-, -, rfl⟩⟩⟩ :=
      execAcquire_cases he <;> exact .inl rfl
  | encode => obtain ⟨-, -, b, -, rfl⟩ := execEncode_cases he; exact .inl rfl
  | frame => obtain ⟨-, rfl⟩ := execFrame_cases he; exact .inl rfl
  | transmit =>
    obtain ⟨⟨hp, hh⟩, ⟨-, -, rfl⟩ | ⟨-, -, rfl⟩ | ⟨hb, buf, hbuf, rfl⟩⟩ := execTransmit_cases he
    · exact .inl rfl
    · exact .inl rfl
    · exact .inr ⟨⟨hp, hh, hb⟩, buf, hbuf, rfl⟩
  | idle => obtain ⟨-, ⟨-, rfl⟩ | ⟨-, rfl⟩⟩ := execIdle_cases he <;> exact .inl rfl
  | halt => obtain ⟨-, rfl⟩ := execHalt_cases he; exact .inl rfl
  | txEmit =>
    obtain ⟨-, -, p, -, rfl⟩ := execTxEmit_cases he
    obtain ⟨-, e⟩ | ⟨-, -, e⟩ | ⟨-, -, e⟩ := emitSymbol_cases p s <;> rw [e] <;> exact .inl rfl
  | txDone => obtain ⟨-, -, rfl⟩ := execTxDone_cases he; exact .inl (by simp)
  | encodeByte o b => cases he; exact .inl rfl
  | decodeSymbol p => cases he; exact .inl rfl
  | s0 => cases he; exact .inl rfl
  | s1 => cases he; exact .inl rfl
  | sr => cases he; exact .inl rfl

theorem settle_log (s t : State) : (s.settle t).log = t.log := by
  unfold State.settle
  split_ifs <;> rfl

/-- A step that makes the log longer is a submit. -/
theorem step_of_longer_log (h : step s = .next t) (hlog : s.log.length < t.log.length) :
    s.atBoundary .transmit ∧ ∃ buf, s.buffer = some buf ∧ t = s.settle (s.submit buf) := by
  obtain ⟨-, ⟨-, r, rfl⟩ | ⟨-, ⟨-, rfl⟩ | ⟨-, -, rfl⟩ | ⟨-, -, -, rfl⟩ | ⟨-, -, -, u, hu, rfl⟩⟩⟩ := step_cases h
  · exact absurd hlog (lt_irrefl _)
  · exact absurd hlog (Nat.not_lt_zero _)
  · simp at hlog
  · exact absurd hlog (lt_irrefl _)
  · rw [settle_log] at hlog
    rcases exec_log hu with hsame | ⟨hat, buf, hbuf, rfl⟩
    · rw [hsame] at hlog
      exact absurd hlog (lt_irrefl _)
    · exact ⟨hat, buf, hbuf, rfl⟩

/-- While the block runs, the step adds no tick to those its operation shows (log 18). -/
theorem settle_trace_of_running (hh : s.halted = false) (t : State) : (s.settle t).trace = t.trace := by
  unfold State.settle
  rw [hh]
  split_ifs with hcall hhalted
  · rfl
  · exact nomatch hhalted
  · rfl

end Loop

/-- Settles O35: each operation follows the loop; a call and a wait keep the phase. -/
theorem phasesFollowTheLoop : Obligations.PhasesFollowTheLoop := by
  intro s t h hrst hin
  obtain ⟨-, ⟨-, r, rfl⟩ | ⟨-, ⟨hrst', -⟩ | ⟨-, hin', -⟩ | ⟨-, -, -, rfl⟩ | ⟨-, -, -, u, hu, rfl⟩⟩⟩ := step_cases h
  · exact .inl rfl
  · exact nomatch hrst.symm.trans hrst'
  · exact nomatch hin.symm.trans hin'
  · exact .inl rfl
  · exact (exec_phaseFollows hu).settle

/-- Settles O44: every entry is `build_pb` of a whole frame, whose windows come before its last slot. -/
theorem logEntriesAreFrames : Obligations.LogEntriesAreFrames := by
  intro s hs e he
  obtain ⟨f, hf, rfl⟩ := hs.contents.logged e he
  refine ⟨?_, List.getLast?_concat, rfl, rfl, fun j p hj hp => ?_⟩
  · rw [buildPb_length _ _ hf, Config.bufferLen, Nat.mul_comm]
  · have hwindow : j < (encodeBytes s.cfg s.bitOrderQ f).length := by
      rw [encodeBytes_length, hf, eight_mul_frameLen, Config.lastSlot, Nat.mul_comm]; exact hj
    rw [buildPb, List.getElem?_append_left hwindow] at hp
    exact mem_encodeBytes (List.mem_of_getElem? hp)

/-- A submit from a safe state logs `build_pb` of the frame in FB (R141). -/
theorem submit_logs_frame {s t : State} (hs : Safe s) (hat : s.atBoundary .transmit)
    (he : exec .transmit s = .next t) :
    ∃ f, s.frame = some f ∧ t.log = s.log ++ [buildPb s.cfg s.bitOrderQ f] := by
  obtain ⟨f, hf, hbuf⟩ := hs.contents.built hat.1
  obtain rfl : s.submit _ = t := by
    simpa using (exec_transmit_of_buffer hat hbuf).symm.trans he
  exact ⟨f, hf, rfl⟩

/-- Settles O46: both entries are `build_pb` of the one frame. -/
theorem equalFramesGiveEqualEntries : Obligations.EqualFramesGiveEqualEntries := by
  intro s s' t t' hs hs' hcfg horder hframe hat hat' he he'
  obtain ⟨f, hf, hlog⟩ := submit_logs_frame hs hat he
  obtain ⟨f', hf', hlog'⟩ := submit_logs_frame hs' hat' he'
  obtain rfl : f = f' := Option.some.inj (by rw [← hf, hframe, hf'])
  exact ⟨_, hlog, by rw [hlog', hcfg, horder]⟩

/-- Settles O48: the submit leaves the trace as it is, and the invariant of the line bounds its Low end in TRANSMIT. -/
theorem submitComesAfterTheLowTime : Obligations.SubmitComesAfterTheLowTime := by
  intro s t hs h hlonger buf hlast
  obtain ⟨⟨hp, hh, hb⟩, buf', -, rfl⟩ := step_of_longer_log h hlonger
  have hlow := hs.line.lowTime buf hlast hh hb
  rw [hp, if_neg (by decide), Nat.add_zero, Config.idleGapTicks, ← Nat.add_assoc] at hlow
  rwa [settle_trace_of_running hh, submit_trace]

end Sys2Proof.Machine

/-! PROOFS. Many steps: what an undisturbed run of a phase, of a symbol, of a transmission and of the whole loop leaves,
each with the state it ends in written out, and a failed ACQUIRE followed by the halted block. -/

namespace Sys2Proof.Machine

section Runs

variable {s t u : State} {n : Nat}

/-! ### One step of a running block -/

theorem callPending_of_running (hr : s.running) : s.callPending = false := by
  obtain ⟨-, -, hcall⟩ := hr
  simp [State.callPending, hcall]

/-- A step of a running block that is neither a reset nor a wait is its operation and what the step adds to it. -/
theorem step_of_running (hr : s.running) (hrst : s.cur.rst = false) (hheld : s.held = false)
    (he : exec s.operation s = .next u) : step s = .next (if s.halted then u.tick.pop else u.pop) := by
  have hcall := callPending_of_running hr
  obtain ⟨hl, hin, -⟩ := hr
  rw [step_eq_exec hl hcall hrst hin hheld he, settle_of_not_pending hcall]

theorem held_of_undisturbed (hq : s.undisturbed (n + 1)) : s.held = false := by
  obtain ⟨-, -, hhold⟩ := State.undisturbed_cur hq
  simp [State.held, hhold]

theorem State.undisturbed_pop (hq : s.undisturbed (n + 1)) : s.pop.undisturbed n :=
  State.undisturbed_drop (m := 1) (by rwa [Nat.add_comm]) (List.drop_one).symm

theorem run_one (h : step s = .next t) : run 1 s = .next t := run_succ 0 h

/-- The first step of an undisturbed run. -/
theorem step_undisturbed (hr : s.running) (hh : s.halted = false) (hq : s.undisturbed (n + 1))
    (he : exec s.operation s = .next u) : step s = .next u.pop := by
  obtain ⟨hrst, -, -⟩ := State.undisturbed_cur hq
  rw [step_of_running hr hrst (held_of_undisturbed hq) he, hh]
  rfl

theorem operation_of_boundary {p : Phase} (h : s.atBoundary p) : s.operation = phaseInstr p := by
  obtain ⟨hp, hh, hb⟩ := h
  simp [State.operation, hp, hh, hb]

theorem step_of_boundary {p : Phase} (hr : s.running) (h : s.atBoundary p) (hq : s.undisturbed (n + 1))
    (he : exec (phaseInstr p) s = .next u) : step s = .next u.pop :=
  have ⟨_, hh, _⟩ := h
  step_undisturbed hr hh hq (by rwa [operation_of_boundary h])

/-! ### ENCODE (R133) -/

theorem Memory.writeSpan_append {α : Type} (us vs : List α) : ∀ (m : List (Nat × α)) (a : Nat),
    Memory.writeSpan m a (us ++ vs) = Memory.writeSpan (Memory.writeSpan m a us) (a + us.length) vs := by
  induction us with
  | nil => intro m a; rfl
  | cons v us ih =>
    intro m a
    rw [List.cons_append, Memory.writeSpan, ih, Memory.writeSpan, List.length_cons, Nat.add_right_comm, Nat.add_assoc]

/-- ENCODE after `m` bytes of the frame `f`, begun in `s`. -/
def State.encodedTo (s : State) (f : List Byte) (m : Nat) : State :=
  { s with
    pb := Memory.writeSpan s.pb 0 (encodeBytes s.cfg s.bitOrderQ (f.take m))
    byteIdx := m
    phase := if m = s.cfg.frameLen then .frame else .encode
    inputs := s.inputs.drop m }

theorem encodedTo_zero (hl : s.cfg.legal = true) (hp : s.phase = .encode) (hi : s.byteIdx = 0) (f : List Byte) :
    s.encodedTo f 0 = s := by
  have hpos : ¬ 0 = s.cfg.frameLen := (frameLen_pos hl).ne
  calc s.encodedTo f 0 = { s with phase := .encode, byteIdx := 0 } := by
        simp [State.encodedTo, hpos, Memory.writeSpan]
    _ = s := by rw [← hp, ← hi]

/-- The window of the next byte goes behind those written. -/
theorem encodedTo_succ {f : List Byte} {m : Nat} {b : Byte} (hb : f[m]? = some b) (hm : m < s.cfg.frameLen) :
    ((s.encodedTo f m).encodeWindow b).pop = s.encodedTo f (m + 1) := by
  have hlen : (encodeBytes s.cfg s.bitOrderQ (f.take m)).length = 8 * m := by
    rw [encodeBytes_length, List.length_take_of_le (List.getElem?_eq_some_iff.mp hb).1.le]
  have hpb := Memory.writeSpan_append (encodeBytes s.cfg s.bitOrderQ (f.take m)) (encodeByte s.cfg s.bitOrderQ b) s.pb 0
  rw [hlen, Nat.zero_add, ← encodeBytes_take_succ _ _ hb] at hpb
  simp [State.encodedTo, State.encodeWindow, State.pop, hpb, hm.ne]

theorem run_encode (hr : s.running) (h : s.atBoundary .encode) (hi : s.byteIdx = 0) {f : List Byte}
    (hf : s.frame = some f) {m : Nat} (hm : m ≤ s.cfg.frameLen) (hq : s.undisturbed m) :
    run m s = .next (s.encodedTo f m) := by
  obtain ⟨hp, hh, hb⟩ := h
  induction m with
  | zero =>
    obtain ⟨hl, -, -⟩ := hr
    rw [encodedTo_zero hl hp hi, run_zero]
  | succ m ih =>
    have hlt : m < f.length := frame_length hf ▸ hm
    have hbyte : f[m]? = some f[m] := List.getElem?_eq_getElem hlt
    have hread : s.readFb m = some f[m] := (frame_getElem? hf hm).symm.trans hbyte
    have hat : (s.encodedTo f m).atBoundary .encode := ⟨if_neg (Nat.ne_of_lt hm), hh, hb⟩
    have hq' : (s.encodedTo f m).undisturbed 1 := State.undisturbed_drop hq rfl
    have hstep : step (s.encodedTo f m) = .next ((s.encodedTo f m).encodeWindow f[m]).pop :=
      step_of_boundary (s := s.encodedTo f m) hr hat hq' (exec_encode_of_read hat hm hread)
    rw [run_add m 1 (ih (by omega) (State.undisturbed_le hq (Nat.le_succ m))), run_one hstep,
      encodedTo_succ hbyte hm]

theorem encodeBytes_getElem? (c : Config) (o : BitOrder) {f : List Byte} {i k : Nat} {b : Byte} (hb : f[i]? = some b)
    (hk : k < 8) : (encodeBytes c o f)[8 * i + k]? = some (c.sym (bitsel o b k)) := by
  induction f generalizing i with
  | nil => simp at hb
  | cons a f ih =>
    rw [encodeBytes_cons]
    cases i with
    | zero =>
      obtain rfl : a = b := by simpa using hb
      rw [Nat.mul_zero, Nat.zero_add, List.getElem?_append_left (by simpa using hk), encodeByte_getElem? _ _ _ hk]
    | succ i =>
      have hshift : 8 * (i + 1) + k - 8 = 8 * i + k := by omega
      rw [List.getElem?_append_right (by simp; omega), encodeByte_length, hshift]
      exact ih (by simpa using hb)

/-- After the last byte every data slot holds its symbol. -/
theorem readPb_encodedTo_inside {f : List Byte} (hf : f.length = s.cfg.frameLen) {i k : Nat} {b : Byte}
    (hb : f[i]? = some b) (hk : k < 8) :
    (s.encodedTo f s.cfg.frameLen).readPb (8 * i + k) = some (s.cfg.sym (bitsel s.bitOrderQ b k)) := by
  have hi : i < f.length := (List.getElem?_eq_some_iff.mp hb).1
  rw [State.readPb, State.encodedTo, Memory.read_writeSpan, List.take_of_length_le hf.le, encodeBytes_length,
    if_pos (by omega), Nat.sub_zero, encodeBytes_getElem? _ _ hb hk]

theorem readPb_encodedTo_outside {f : List Byte} (hf : f.length = s.cfg.frameLen) {j : Nat}
    (hj : s.cfg.lastSlot ≤ j) : (s.encodedTo f s.cfg.frameLen).readPb j = s.readPb j := by
  rw [State.readPb, State.encodedTo, Memory.read_writeSpan, List.take_of_length_le hf.le, encodeBytes_length, hf,
    eight_mul_frameLen, if_neg (by omega), State.readPb]

/-! ### IDLE (R139) -/

/-- IDLE over, from `s` with its count still to come. -/
def State.afterIdle (s : State) : State :=
  { s with
    phase := .acquire
    acqCount := 0
    idleCnt := 0
    trace := s.trace ++ List.replicate s.idleCnt s.dout
    inputs := s.inputs.drop (s.idleCnt + 1) }

theorem afterIdle_of_zero (hz : s.idleCnt = 0) : s.enterAcquire.pop = s.afterIdle := by
  simp [State.afterIdle, State.enterAcquire, State.pop, hz]

theorem afterIdle_countDown (hn : s.idleCnt = n + 1) : s.countDown.pop.afterIdle = s.afterIdle := by
  simp [State.afterIdle, State.countDown, State.tick, State.pop, hn, List.replicate_succ]

theorem run_idle (hr : s.running) (h : s.atBoundary .idle) (hn : s.idleCnt = n) (hq : s.undisturbed (n + 1)) :
    run (n + 1) s = .next s.afterIdle := by
  induction n generalizing s with
  | zero => rw [run_one (step_of_boundary hr h hq (exec_idle_of_zero h hn)), afterIdle_of_zero hn]
  | succ n ih =>
    have hcount : s.countDown.pop.idleCnt = n := by simp [hn]
    rw [run_succ _ (step_of_boundary hr h hq (exec_idle_of_count h (by omega))),
      ih (s := s.countDown.pop) hr h hcount (State.undisturbed_pop hq), afterIdle_countDown hn]

/-! ### A half of a symbol, and a symbol (R137) -/

/-- TX in flight stands at the symbol `p`. -/
def State.emitting (s : State) (p : PulseSymbol) : Prop :=
  s.running ∧ s.halted = false ∧ s.txBusy = true ∧ s.symIdx ≤ s.cfg.lastSlot ∧ s.readPb s.symIdx = some p

variable {p : PulseSymbol}

theorem step_of_emitting (h : s.emitting p) (hq : s.undisturbed (n + 1)) : step s = .next (emitSymbol p s).pop := by
  obtain ⟨hr, hh, hb, hi, hp⟩ := h
  obtain ⟨-, herr, -⟩ := State.undisturbed_cur hq
  have hop : s.operation = .txEmit := by simp [State.operation, hh, hb, herr, hi]
  exact step_undisturbed hr hh hq (by rw [hop, exec_txEmit_of_read hb hi hp])

/-- Whether TX stands at `p` does not depend on the half, the line or the draws. -/
theorem State.emitting.congr (h : s.emitting p) (e : t = { s with
      half := t.half, ticksLeft := t.ticksLeft, dout := t.dout, trace := t.trace, inputs := t.inputs }) :
    t.emitting p := by
  rw [e]; exact h

/-- The present half over, driven at level `l` for the ticks that were left. -/
def State.afterHalf (s : State) (l : Level) : State :=
  { s with
    ticksLeft := 0
    dout := if 0 < s.ticksLeft then l else s.dout
    trace := s.trace ++ List.replicate s.ticksLeft l
    inputs := s.inputs.drop s.ticksLeft }

theorem afterHalf_of_zero (hz : s.ticksLeft = 0) (l : Level) : s.afterHalf l = s := by
  calc s.afterHalf l = { s with ticksLeft := 0 } := by simp [State.afterHalf, hz]
    _ = s := by rw [← hz]

theorem afterHalf_drive (hn : s.ticksLeft = n + 1) (l : Level) : (s.drive l).pop.afterHalf l = s.afterHalf l := by
  simp [State.afterHalf, State.drive, State.tick, State.pop, hn, List.replicate_succ]

theorem run_half (h : s.emitting p) (hn : s.ticksLeft = n) (hq : s.undisturbed n) :
    run n s = .next (s.afterHalf (p.level s.half)) := by
  induction n generalizing s with
  | zero => rw [run_zero, afterHalf_of_zero hn]
  | succ n ih =>
    have hleft : (s.drive (p.level s.half)).pop.ticksLeft = n := by simp [hn]
    rw [run_succ _ (step_of_emitting h hq), emitSymbol_of_ticksLeft (by omega),
      ih (s := (s.drive (p.level s.half)).pop) h hleft (State.undisturbed_pop hq)]
    exact congrArg _ (afterHalf_drive hn _)

/-- TX at the start of half 1 of the symbol `p`, from the start of the symbol in `s`. -/
def State.atSecondHalf (s : State) (p : PulseSymbol) : State :=
  { s with
    half := .second
    ticksLeft := p.d1
    dout := doutEntering p.l1 (if 0 < p.d0 then p.l0 else s.dout)
    trace := s.trace ++ List.replicate p.d0 p.l0
    inputs := s.inputs.drop (p.d0 + 1) }

theorem toSecondHalf_afterHalf (ht : s.ticksLeft = p.d0) :
    ((s.afterHalf p.l0).toSecondHalf p).pop = s.atSecondHalf p := by
  simp [State.atSecondHalf, State.afterHalf, State.toSecondHalf, State.pop, ht]

theorem run_first_half (h : s.emitting p) (hh : s.half = .first) (ht : s.ticksLeft = p.d0)
    (hq : s.undisturbed (p.d0 + 1)) : run (p.d0 + 1) s = .next (s.atSecondHalf p) := by
  have hhalf := run_half h ht (State.undisturbed_le hq (Nat.le_succ _))
  rw [hh] at hhalf
  have hq' : (s.afterHalf p.l0).undisturbed 1 := State.undisturbed_drop hq (by rw [State.afterHalf, ht])
  have hmove := step_of_emitting (h.congr (t := s.afterHalf p.l0) rfl) hq'
  rw [emitSymbol_of_first (s := s.afterHalf p.l0) rfl hh, toSecondHalf_afterHalf ht] at hmove
  rw [run_add _ _ hhalf]
  exact run_one hmove

/-- DOUT at the end of the symbol `p` that began in `s`: the level last driven, or kept (R29, log 29). -/
def State.doutAfter (s : State) (p : PulseSymbol) : Level :=
  if 0 < p.d1 then p.l1 else doutEntering p.l1 (if 0 < p.d0 then p.l0 else s.dout)

/-- TX at the start of the symbol after `p`, from the start of `p` in `s`. -/
def State.afterSymbol (s : State) (p : PulseSymbol) : State :=
  { s with
    symIdx := s.symIdx + 1
    half := .first
    ticksLeft := s.firstTicks (s.symIdx + 1)
    dout := State.doutAtSymbol { s with dout := s.doutAfter p } (s.symIdx + 1)
    trace := s.trace ++ List.replicate p.d0 p.l0 ++ List.replicate p.d1 p.l1
    inputs := s.inputs.drop (p.d0 + p.d1 + 2) }

theorem firstTicks_congr (hpb : t.pb = s.pb) (j : Nat) : t.firstTicks j = s.firstTicks j := by
  simp only [State.firstTicks, State.readPb, hpb]

theorem doutAtSymbol_congr (hpb : t.pb = s.pb) (hd : t.dout = s.dout) (j : Nat) :
    t.doutAtSymbol j = s.doutAtSymbol j := by
  simp only [State.doutAtSymbol, State.readPb, hpb, hd]

theorem toNextSymbol_afterHalf (s : State) (p : PulseSymbol) :
    ((s.atSecondHalf p).afterHalf p.l1).toNextSymbol.pop = s.afterSymbol p := by
  have hticks : ((s.atSecondHalf p).afterHalf p.l1).firstTicks (s.symIdx + 1) = s.firstTicks (s.symIdx + 1) :=
    firstTicks_congr rfl _
  have hdout : ((s.atSecondHalf p).afterHalf p.l1).doutAtSymbol (s.symIdx + 1) =
      State.doutAtSymbol { s with dout := s.doutAfter p } (s.symIdx + 1) := doutAtSymbol_congr rfl rfl _
  have hinputs : ((s.inputs.drop (p.d0 + 1)).drop p.d1).tail = s.inputs.drop (p.d0 + p.d1 + 2) := by
    rw [List.drop_drop, List.tail_drop]
    congr 1
    omega
  rw [State.afterSymbol, ← hticks, ← hdout, ← hinputs]
  rfl

theorem run_second_half (h : s.emitting p) (hq : (s.atSecondHalf p).undisturbed (p.d1 + 1)) :
    run (p.d1 + 1) (s.atSecondHalf p) = .next (s.afterSymbol p) := by
  have hhalf : run p.d1 (s.atSecondHalf p) = .next ((s.atSecondHalf p).afterHalf p.l1) :=
    run_half (h.congr rfl) rfl (State.undisturbed_le hq (Nat.le_succ _))
  have hq' : ((s.atSecondHalf p).afterHalf p.l1).undisturbed 1 := State.undisturbed_drop hq rfl
  have hmove := step_of_emitting (h.congr (t := (s.atSecondHalf p).afterHalf p.l1) rfl) hq'
  rw [emitSymbol_of_second rfl rfl, toNextSymbol_afterHalf] at hmove
  rw [run_add _ _ hhalf]
  exact run_one hmove

theorem run_symbol (h : s.emitting p) (hh : s.half = .first) (ht : s.ticksLeft = p.d0)
    (hq : s.undisturbed (p.d0 + p.d1 + 2)) : run (p.d0 + p.d1 + 2) s = .next (s.afterSymbol p) := by
  have hsum : p.d0 + p.d1 + 2 = (p.d0 + 1) + (p.d1 + 1) := by omega
  rw [hsum] at hq ⊢
  rw [run_add _ _ (run_first_half h hh ht (State.undisturbed_le hq (Nat.le_add_right _ _))),
    run_second_half h (State.undisturbed_drop hq rfl)]

theorem afterSymbol_dout_of_none (hn : s.readPb (s.symIdx + 1) = none) : (s.afterSymbol p).dout = .low :=
  doutAtSymbol_of_none (s := { s with dout := s.doutAfter p }) hn

/-- DOUT at the start of the next symbol: the level last driven, unless a Low half is left or entered (log 29). -/
theorem afterSymbol_dout_of_read {q : PulseSymbol} (hq : s.readPb (s.symIdx + 1) = some q) :
    (s.afterSymbol p).dout = if q.l0 = .low ∨ p.l1 = .low then .low else if 0 < p.d1 then .high
      else if 0 < p.d0 then p.l0 else s.dout := by
  have hdout : (s.afterSymbol p).dout = doutEntering q.l0 (s.doutAfter p) :=
    doutAtSymbol_of_read (s := { s with dout := s.doutAfter p }) hq
  rw [hdout, State.doutAfter]
  cases q.l0 <;> cases p.l1 <;> simp

/-! ### A sequence of symbols (R137) -/

/-- The steps TX takes for a sequence of symbols: one a tick, two more a symbol. -/
def emissionSteps (ps : List PulseSymbol) : Nat := (ticks ps).length + 2 * ps.length

theorem emissionSteps_cons (p : PulseSymbol) (ps : List PulseSymbol) :
    emissionSteps (p :: ps) = (p.d0 + p.d1 + 2) + emissionSteps ps := by
  simp only [emissionSteps, ticks_cons, List.length_append, List.length_replicate, List.length_cons]
  omega

/-- TX has gone from `s` over the symbols `ps` to `t`; HALF, TICKS_LEFT and DOUT of `t` are any. -/
def State.Emitted (s : State) (ps : List PulseSymbol) (t : State) : Prop :=
  ∃ (h : Half) (n : Nat) (l : Level), t = { s with
    symIdx := s.symIdx + ps.length, half := h, ticksLeft := n, dout := l
    trace := s.trace ++ ticks ps, inputs := s.inputs.drop (emissionSteps ps) }

theorem emitted_nil (s : State) : s.Emitted [] s := ⟨s.half, s.ticksLeft, s.dout, by simp [emissionSteps]⟩

theorem emitted_cons {ps : List PulseSymbol} (h : (s.afterSymbol p).Emitted ps t) : s.Emitted (p :: ps) t := by
  have hidx : s.symIdx + (p :: ps).length = s.symIdx + 1 + ps.length := by rw [List.length_cons]; omega
  rw [State.Emitted, hidx, ticks_cons, emissionSteps_cons, ← List.drop_drop, ← List.append_assoc, ← List.append_assoc]
  exact h

/-- TX in flight with the symbols `ps` of PB still to be emitted, at the start of the first of them. -/
structure State.StartOf (s : State) (buf ps : List PulseSymbol) : Prop where
  running : s.running
  halted : s.halted = false
  busy : s.txBusy = true
  buffer : s.buffer = some buf
  toCome : buf.drop s.symIdx = ps
  half : s.half = .first
  ticksLeft : s.ticksLeft = s.firstTicks s.symIdx

variable {buf ps : List PulseSymbol}

theorem State.StartOf.getElem? (h : s.StartOf buf (p :: ps)) : buf[s.symIdx]? = some p := by
  rw [← List.head?_drop, h.toCome, List.head?_cons]

theorem State.StartOf.emitting (h : s.StartOf buf (p :: ps)) : s.emitting p := by
  have hi : s.symIdx < s.cfg.bufferLen := bufferLen_eq_length h.buffer ▸ (List.getElem?_eq_some_iff.mp h.getElem?).1
  exact ⟨h.running, h.halted, h.busy, Nat.le_of_lt_succ hi, (buffer_get h.buffer hi).trans h.getElem?⟩

theorem State.StartOf.ticksLeft_eq (h : s.StartOf buf (p :: ps)) : s.ticksLeft = p.d0 :=
  h.ticksLeft.trans (firstTicks_of_buffer h.buffer h.getElem?)

theorem State.StartOf.afterSymbol (h : s.StartOf buf (p :: ps)) : (s.afterSymbol p).StartOf buf ps := by
  have hdrop : buf.drop (s.symIdx + 1) = ps := by
    rw [← List.drop_drop, h.toCome, List.drop_one, List.tail_cons]
  exact ⟨h.running, h.halted, h.busy, h.buffer, hdrop, rfl, rfl⟩

theorem run_symbols (h : s.StartOf buf ps) (hq : s.undisturbed (emissionSteps ps)) :
    ∃ t, run (emissionSteps ps) s = .next t ∧ s.Emitted ps t := by
  induction ps generalizing s with
  | nil => exact ⟨s, rfl, emitted_nil s⟩
  | cons p ps ih =>
    rw [emissionSteps_cons] at hq ⊢
    have hrun := run_symbol h.emitting h.half h.ticksLeft_eq (State.undisturbed_le hq (Nat.le_add_right _ _))
    obtain ⟨t, hrest, hemitted⟩ := ih h.afterSymbol (State.undisturbed_drop hq rfl)
    exact ⟨t, by rw [run_add _ _ hrun, hrest], emitted_cons hemitted⟩

/-! ### A transmission (R135 to R138) -/

/-- The transmission of `buf`, submitted in `s`, is completed in `t`; HALF and TICKS_LEFT of `t` are any. -/
def State.Transmitted (s : State) (buf : List PulseSymbol) (t : State) : Prop :=
  ∃ (h : Half) (n : Nat), t = { s with
    log := s.log ++ [buf], trace := s.trace ++ ticks buf, phase := .idle, txBusy := false, dout := .low
    idleCnt := s.cfg.idleGapTicks, symIdx := s.cfg.bufferLen, half := h, ticksLeft := n
    txMark := s.trace.length, inputs := s.inputs.drop (transmissionSteps buf) }

theorem step_of_completion (hr : s.running) (hh : s.halted = false) (hb : s.txBusy = true)
    (hi : s.symIdx = s.cfg.bufferLen) (hp : s.phase = .transmit) (hq : s.undisturbed (n + 1)) :
    step s = .next s.endTransmission.enterIdle.pop := by
  obtain ⟨-, herr, -⟩ := State.undisturbed_cur hq
  have hpast : ¬ s.symIdx ≤ s.cfg.lastSlot := by rw [hi]; exact Nat.not_succ_le_self _
  have hop : s.operation = .txDone := by simp [State.operation, hh, hb, herr, hpast]
  exact step_undisturbed hr hh hq (by rw [hop, exec_txDone_of_transmit hb hi hp])

theorem startOf_submit (hr : s.running) (hh : s.halted = false) (hbuf : s.buffer = some buf) :
    (s.submit buf).pop.StartOf buf buf :=
  ⟨hr, hh, rfl, hbuf, rfl, rfl, firstTicks_congr (s := (s.submit buf).pop) (t := s) rfl 0⟩

theorem run_transmission (hr : s.running) (hat : s.atBoundary .transmit) (hbuf : s.buffer = some buf)
    (hq : s.undisturbed (transmissionSteps buf)) :
    ∃ t, run (transmissionSteps buf) s = .next t ∧ s.Transmitted buf t := by
  have hsteps : transmissionSteps buf = (emissionSteps buf + 1) + 1 := by
    unfold transmissionSteps emissionSteps; omega
  have hlen : buf.length = s.cfg.bufferLen := bufferLen_eq_length hbuf
  unfold State.Transmitted
  rw [hsteps] at hq ⊢
  have hsubmit := step_of_boundary hr hat hq (exec_transmit_of_buffer hat hbuf)
  obtain ⟨hp, hh, -⟩ := hat
  have hq1 : (s.submit buf).pop.undisturbed (emissionSteps buf + 1) := State.undisturbed_pop hq
  obtain ⟨u, hemission, h, m, l, hu⟩ :=
    run_symbols (startOf_submit hr hh hbuf) (State.undisturbed_le hq1 (Nat.le_succ _))
  have hq2 : u.undisturbed 1 := State.undisturbed_drop hq1 (by rw [hu])
  have hend : step u = .next u.endTransmission.enterIdle.pop := by
    rw [hu] at hq2 ⊢
    exact step_of_completion hr hh rfl ((Nat.zero_add _).trans hlen) hp hq2
  refine ⟨u.endTransmission.enterIdle.pop, ?_, h, m, ?_⟩
  · rw [run_succ _ hsubmit, run_add _ _ hemission, run_one hend]
  · rw [hu]
    simp [State.endTransmission, State.enterIdle, State.pop, State.submit, hlen]

end Runs

/-- Settles O54: the windows are written one behind the other, by induction over the bytes. -/
theorem encodePhaseFillsTheBuffer : Obligations.EncodePhaseFillsTheBuffer := by
  intro s f hr hat hi hf hq
  have hlen := frame_length hf
  have hdone : s.encodedTo f s.cfg.frameLen = { s with
      pb := (s.encodedTo f s.cfg.frameLen).pb, byteIdx := s.cfg.frameLen, phase := .frame
      inputs := s.inputs.drop s.cfg.frameLen } := by
    rw [State.encodedTo, if_pos rfl]
  exact ⟨s.encodedTo f s.cfg.frameLen, run_encode hr hat hi hf le_rfl hq, hdone,
    fun i k b hb hk => readPb_encodedTo_inside hlen hb hk, fun j hj => readPb_encodedTo_outside hlen hj⟩

/-- Settles O55: each half is driven for its ticks, by induction over them, with one step to leave it. -/
theorem symbolIsDrivenForItsExactTicks : Obligations.SymbolIsDrivenForItsExactTicks := by
  intro s p hr hh hb hi hp hhalf ht hq
  exact ⟨s.afterSymbol p, run_symbol ⟨hr, hh, hb, hi, hp⟩ hhalf ht hq, rfl, rfl, rfl, afterSymbol_dout_of_none,
    fun q hq' => ⟨firstTicks_of_readPb hq', afterSymbol_dout_of_read hq'⟩, rfl⟩

/-- Settles O56: the submit, the symbols of the buffer by induction, and TX_DONE. -/
theorem transmissionRunsToCompletion : Obligations.TransmissionRunsToCompletion := by
  intro s buf hr hat hbuf hq
  obtain ⟨t, hrun, h, n, rfl⟩ := run_transmission hr hat hbuf hq
  exact ⟨_, hrun, rfl⟩

/-- Settles O57: by induction over IDLE_CNT. -/
theorem idleLastsItsCount : Obligations.IdleLastsItsCount := by
  intro s hr hat hq
  exact run_idle hr hat rfl hq

/-! ### One iteration of the loop (R130) -/

/-- The block at the submit of the frame `d`, taken at the boundary of ACQUIRE in `s`. -/
def State.beforeSubmit (s : State) (d : List Byte) : State :=
  { s with
    fb := Memory.writeSpan s.fb 0 d
    pb := Memory.writeSpan s.pb 0 (buildPb s.cfg s.bitOrderQ d)
    acqCount := s.cfg.frameLen
    byteIdx := s.cfg.frameLen
    phase := .transmit
    inputs := s.inputs.drop (1 + s.cfg.frameLen + 1) }

section Iteration

variable {s : State} {d : List Byte}

/-- FRAME's write of SR completes `build_pb` behind the windows of ENCODE (R141). -/
theorem closeFrame_encodedTo (hd : d.length = s.cfg.frameLen) :
    ((s.takeFrame d).pop.encodedTo d s.cfg.frameLen).closeFrame.pop = s.beforeSubmit d := by
  have hlen : (encodeBytes s.cfg s.bitOrderQ d).length = s.cfg.lastSlot := by
    rw [encodeBytes_length, hd, eight_mul_frameLen]
  have hpb : Memory.write (Memory.writeSpan s.pb 0 (encodeBytes s.cfg s.bitOrderQ d)) s.cfg.lastSlot s.cfg.symSR =
      Memory.writeSpan s.pb 0 (buildPb s.cfg s.bitOrderQ d) := by
    rw [buildPb, Memory.writeSpan_append, hlen, Nat.zero_add, Memory.writeSpan, Memory.writeSpan]
  simp [State.beforeSubmit, State.encodedTo, State.takeFrame, State.enterEncode, State.closeFrame, State.pop, hpb,
    List.take_of_length_le hd.le, Nat.add_comm 1]

theorem buffer_beforeSubmit (hd : d.length = s.cfg.frameLen) :
    (s.beforeSubmit d).buffer = some (buildPb s.cfg s.bitOrderQ d) := by
  have hread := Memory.readSpan_writeSpan s.pb 0 (buildPb s.cfg s.bitOrderQ d)
  rwa [buildPb_length s.cfg s.bitOrderQ hd] at hread

theorem frame_beforeSubmit (hd : d.length = s.cfg.frameLen) : (s.beforeSubmit d).frame = some d := frame_takeFrame hd

/-- ACQUIRE, ENCODE and FRAME on a whole answer. -/
theorem run_to_submit (hr : s.running) (hat : s.atBoundary .acquire) (hf : s.cur.srcFail = false)
    (ha : s.cur.srcAnswer = some (.full d)) (hd : d.length = s.cfg.frameLen)
    (hq : s.undisturbed (1 + s.cfg.frameLen + 1)) :
    run (1 + s.cfg.frameLen + 1) s = .next (s.beforeSubmit d) := by
  have hsum : 1 + s.cfg.frameLen + 1 = (s.cfg.frameLen + 1) + 1 := by omega
  rw [hsum] at hq ⊢
  have hacquire := step_of_boundary hr hat hq (exec_acquire_of_full hat hf ha hd)
  obtain ⟨-, hh, hb⟩ := hat
  have hq1 : (s.takeFrame d).pop.undisturbed (s.cfg.frameLen + 1) := State.undisturbed_pop hq
  have hencode : run s.cfg.frameLen (s.takeFrame d).pop = .next ((s.takeFrame d).pop.encodedTo d s.cfg.frameLen) :=
    run_encode (s := (s.takeFrame d).pop) hr ⟨rfl, hh, hb⟩ rfl (frame_takeFrame hd) le_rfl
      (State.undisturbed_le hq1 (Nat.le_succ _))
  have hat2 : ((s.takeFrame d).pop.encodedTo d s.cfg.frameLen).atBoundary .frame := ⟨if_pos rfl, hh, hb⟩
  have hq2 : ((s.takeFrame d).pop.encodedTo d s.cfg.frameLen).undisturbed 1 := State.undisturbed_drop hq1 rfl
  have hframe := step_of_boundary (s := (s.takeFrame d).pop.encodedTo d s.cfg.frameLen) hr hat2 hq2
    (exec_frame_of_boundary hat2)
  rw [run_succ _ hacquire, run_add _ _ hencode, run_one hframe, closeFrame_encodedTo hd]

end Iteration

/-- Settles O58: the phases one after another, each on the draws the phase before it leaves. -/
theorem oneIterationOfTheLoop : Obligations.OneIterationOfTheLoop := by
  intro s d n hr ⟨hp, hh, hb⟩ hdout hf ha hd hn hq
  rw [hn] at hq ⊢
  have hq1 := State.undisturbed_le hq (Nat.le_add_right _ _)
  have hsubmit := run_to_submit hr ⟨hp, hh, hb⟩ hf ha hd (State.undisturbed_le hq1 (Nat.le_add_right _ _))
  have hq2 : (s.beforeSubmit d).undisturbed (transmissionSteps (buildPb s.cfg s.bitOrderQ d)) :=
    State.undisturbed_drop hq1 rfl
  obtain ⟨u, hflight, h, m, hu⟩ :=
    run_transmission (s := s.beforeSubmit d) hr ⟨rfl, hh, hb⟩ (buffer_beforeSubmit hd) hq2
  have hq3 : u.undisturbed (s.cfg.idleGapTicks + 1) :=
    State.undisturbed_drop hq (by rw [hu, ← List.drop_drop]; rfl)
  have hidle : run (s.cfg.idleGapTicks + 1) u = .next u.afterIdle := by
    rw [hu] at hq3 ⊢
    exact run_idle hr ⟨rfl, hh, rfl⟩ rfl hq3
  refine ⟨u.afterIdle, ?_, ⟨rfl, ?_, ?_⟩, rfl, ?_, ?_, ?_, ?_⟩
  · rw [run_add _ _ ((run_add _ _ hsubmit).trans hflight), hidle]
  all_goals rw [hu]
  · exact hh
  · rfl
  · rfl
  · exact frame_beforeSubmit hd
  · rfl
  · rfl

/-! ### The halted block (R146, R176) -/

section Halted

variable {s : State} {n : Nat}

theorem State.noReset_cur (hq : s.noReset (n + 1)) : s.cur.rst = false := by
  unfold State.cur
  cases hi : s.inputs with
  | nil => rfl
  | cons d ds => exact hq d (by simp [hi])

theorem State.noReset_pop (hq : s.noReset (n + 1)) : s.pop.noReset n := by
  intro d hd
  apply hq
  rw [pop_inputs, ← List.drop_one] at hd
  rw [Nat.add_comm, List.take_add]
  exact List.mem_append_right _ hd

theorem step_of_halted (hr : s.running) (hp : s.phase = .halted) (hh : s.halted = true) (hrst : s.cur.rst = false) :
    step s = .next s.tick.pop := by
  have hheld : s.held = false := by simp [State.held, State.canHold, hh]
  have hop : s.operation = .halt := by simp [State.operation, hh]
  have hexec : exec s.operation s = .next s := by simp [hop, exec, execHalt, hp, hh]
  rw [step_of_running hr hrst hheld hexec, hh]
  rfl

/-- The halted block after `n` steps without reset, each a tick of DOUT (log 18). -/
def State.haltedFor (s : State) (n : Nat) : State :=
  { s with trace := s.trace ++ List.replicate n s.dout, inputs := s.inputs.drop n }

theorem run_halted (hr : s.running) (hp : s.phase = .halted) (hh : s.halted = true) (hq : s.noReset n) :
    run n s = .next (s.haltedFor n) := by
  induction n generalizing s with
  | zero => simp [State.haltedFor]
  | succ n ih =>
    rw [run_succ n (step_of_halted hr hp hh (State.noReset_cur hq)),
      ih (s := s.tick.pop) hr hp hh (State.noReset_pop hq)]
    simp [State.haltedFor, State.tick, State.pop, List.replicate_succ]

/-- ACQUIRE has failed after `k` bytes: by an answer, or by `src_fail`, whose tick is on the trace (log 18). -/
def State.afterFailure (s : State) (k : Nat) : State :=
  { s.failAcquire k with trace := s.trace ++ List.replicate (if s.cur.srcFail then 1 else 0) .low }

theorem exec_acquire_of_failure {k : Nat} (hat : s.atBoundary .acquire)
    (hcause : (s.cur.srcFail = false ∧ k < s.cfg.frameLen ∧
        (s.cur.srcAnswer = some (.short k) ∨ s.cur.srcAnswer = some (.error k))) ∨
      (s.cur.srcFail = true ∧ k = s.acqCount)) : exec .acquire s = .next (s.afterFailure k) := by
  rcases hcause with ⟨hf, hk, ha⟩ | ⟨hf, rfl⟩
  · rw [exec_acquire_of_failed_answer hat hf hk ha, State.afterFailure, hf]
    simp [State.failAcquire, State.raiseFault]
  · rw [exec_acquire_of_fail hat hf, State.afterFailure, hf]
    rfl

/-- ACQUIRE waits for its source, never by `hold` (log 10). -/
theorem held_of_acquire (hat : s.atBoundary .acquire) : s.held = false := by
  obtain ⟨hp, hh, hb⟩ := hat
  simp [State.held, State.canHold, hp, hh, hb]

end Halted

/-- Settles O60: the failing step is the SOURCE fault entry, and the halted block only lets Low ticks pass. -/
theorem noTransmissionAfterFailedAcquire : Obligations.NoTransmissionAfterFailedAcquire := by
  intro s k n hr hat hcause hq
  have hexec : exec s.operation s = .next (s.afterFailure k) := by
    rw [operation_of_boundary hat]
    exact exec_acquire_of_failure hat hcause
  have hfail : step s = .next (s.afterFailure k).pop := by
    rw [step_of_running hr (State.noReset_cur hq) (held_of_acquire hat) hexec, hat.2.1]
    rfl
  have hhalt : run n (s.afterFailure k).pop = .next ((s.afterFailure k).pop.haltedFor n) :=
    run_halted (s := (s.afterFailure k).pop) hr rfl rfl (State.noReset_pop hq)
  refine ⟨(s.afterFailure k).pop.haltedFor n, by rw [run_succ n hfail, hhalt], rfl, rfl, rfl, rfl, rfl, rfl, rfl, ?_⟩
  have htrace : ((s.afterFailure k).pop.haltedFor n).trace =
      s.trace ++ List.replicate (if s.cur.srcFail then 1 else 0) .low ++ List.replicate n .low := rfl
  rw [htrace, List.append_assoc, List.replicate_append_replicate]
  split_ifs <;> simp [Nat.add_comm]

end Sys2Proof.Machine

/-! PROOFS. Exceptions: fault entry and what can halt the block (R175), the halted block (R176, R177), and the sampling
windows of the inputs (R177). -/

namespace Sys2Proof.Machine

section Faults

variable {s t : State}

/-! ### Fault entry (R175) -/

/-- An instruction that changes HALTED is ACQUIRE failing, on an answer or on a tick, or TRANSMIT seeing `tx_err`. -/
theorem exec_halted {i : Instr} (he : exec i s = .next t) :
    t.halted = s.halted ∨
    (s.phase = .acquire ∧ ∃ k, t = s.failAcquire k ∨ t = (s.failAcquire k).tick) ∨
    (s.txBusy = true ∧ s.cur.txErr = true ∧ t = s.failTransmission) := by
  cases i with
  | acquire =>
    obtain ⟨⟨hp, -, -⟩, ⟨-, rfl⟩ | ⟨-, ⟨d, -, -, rfl⟩ | ⟨k, -, -, rfl⟩ | ⟨-, -, -, rfl⟩ | ⟨-, -, rfl⟩⟩⟩ :=
      execAcquire_cases he
    · exact .inr (.inl ⟨hp, _, .inr rfl⟩)
    · exact .inl rfl
    · exact .inr (.inl ⟨hp, k, .inl rfl⟩)
    · exact .inl rfl
    · exact .inl rfl
  | encode => obtain ⟨-, -, b, -, rfl⟩ := execEncode_cases he; exact .inl rfl
  | frame => obtain ⟨-, rfl⟩ := execFrame_cases he; exact .inl rfl
  | transmit =>
    obtain ⟨-, ⟨hb, hx, rfl⟩ | ⟨-, -, rfl⟩ | ⟨-, buf, -, rfl⟩⟩ := execTransmit_cases he
    · exact .inr (.inr ⟨hb, hx, rfl⟩)
    · exact .inl rfl
    · exact .inl rfl
  | idle => obtain ⟨-, ⟨-, rfl⟩ | ⟨-, rfl⟩⟩ := execIdle_cases he <;> exact .inl rfl
  | halt => obtain ⟨-, rfl⟩ := execHalt_cases he; exact .inl rfl
  | txEmit =>
    obtain ⟨-, -, p, -, rfl⟩ := execTxEmit_cases he
    obtain ⟨-, e⟩ | ⟨-, -, e⟩ | ⟨-, -, e⟩ := emitSymbol_cases p s <;> rw [e] <;> exact .inl rfl
  | txDone => obtain ⟨-, -, rfl⟩ := execTxDone_cases he; exact .inl (by simp)
  | encodeByte o b => cases he; exact .inl rfl
  | decodeSymbol p => cases he; exact .inl rfl
  | s0 => cases he; exact .inl rfl
  | s1 => cases he; exact .inl rfl
  | sr => cases he; exact .inl rfl

/-- A step that halts the block is the release of reset with `cfg_ok = 0`, ACQUIRE failing, or TRANSMIT seeing
`tx_err` (R171, R172, R173). -/
theorem step_of_halting (h : step s = .next t) (hs : s.halted = false) (ht : t.halted = true) :
    (s.inReset = true ∧ s.cur.rst = false ∧ s.cur.cfgOk = false ∧
      t = (s.releaseReset false s.cur.cfgBitOrder).pop) ∨
    (s.phase = .acquire ∧ ∃ k, t = (s.failAcquire k).pop ∨ t = (s.failAcquire k).tick.pop) ∨
    (s.txBusy = true ∧ s.cur.txErr = true ∧ t = s.failTransmission.pop) := by
  obtain ⟨-, ⟨-, r, rfl⟩ | ⟨hcall, ⟨-, rfl⟩ | ⟨hrst, hin, rfl⟩ | ⟨-, -, -, rfl⟩ | ⟨-, -, -, u, hu, rfl⟩⟩⟩ :=
    step_cases h
  · exact nomatch hs.symm.trans ht
  · exact nomatch ht
  · have hok : s.cur.cfgOk = false := by simpa using ht
    exact .inl ⟨hin, hrst, hok, by rw [hok]⟩
  · exact nomatch hs.symm.trans ht
  · have hsettle : s.settle u = u.pop := by simp [settle_of_not_pending hcall, hs]
    rw [hsettle] at ht ⊢
    rcases exec_halted hu with hkept | ⟨hp, k, rfl | rfl⟩ | ⟨hb, hx, rfl⟩
    · exact nomatch (hkept.trans hs).symm.trans ht
    · exact .inr (.inl ⟨hp, k, .inl rfl⟩)
    · exact .inr (.inl ⟨hp, k, .inr rfl⟩)
    · exact .inr (.inr ⟨hb, hx, rfl⟩)

end Faults

/-- Settles O22: the three steps that halt, each with the registers its fault entry writes and keeps. -/
theorem haltingIsFaultEntry : Obligations.HaltingIsFaultEntry := by
  refine ⟨fun s c => rfl, fun s t h hs ht => ?_⟩
  rcases step_of_halting h hs ht with ⟨hin, hrst, hok, rfl⟩ | ⟨hp, k, rfl | rfl⟩ | ⟨hb, hx, rfl⟩
  · exact ⟨rfl, rfl, rfl, .inl ⟨rfl, rfl, hin, hrst, hok⟩⟩
  · exact ⟨rfl, rfl, rfl, .inr (.inl ⟨rfl, rfl, hp, rfl, rfl, rfl, rfl, rfl⟩)⟩
  · exact ⟨rfl, rfl, rfl, .inr (.inl ⟨rfl, rfl, hp, rfl, rfl, rfl, rfl, rfl⟩)⟩
  · exact ⟨rfl, rfl, rfl, .inr (.inr ⟨rfl, rfl, hb, hx, rfl, rfl, rfl, rfl, rfl, rfl, rfl⟩)⟩

/-- Settles O15: the branch of `src_fail` stands before the answer and the ports. -/
theorem sourceFailureBeatsTransfer : Obligations.SourceFailureBeatsTransfer := by
  intro s hat hf
  exact ⟨_, exec_acquire_of_fail hat hf, rfl⟩

/-! ### The halted block (R176) -/

/-- Settles O21: HALTED is where HALT is enabled. -/
theorem haltChangesNothing : Obligations.HaltChangesNothing := by
  intro s hp hh
  exact if_pos (by simp [hp, hh])

/-- Settles O59: every step without reset is HALT and a tick of DOUT, by induction over the steps. -/
theorem haltedIsAbsorbing : Obligations.HaltedIsAbsorbing := by
  intro s n hr hp hh hq
  exact run_halted hr hp hh hq

/-! ### Sampling windows (R177) -/

/-- The state whose next draw is `d`. -/
def State.withDraw (s : State) (d : Inputs) (ds : List Inputs) : State := { s with inputs := d :: ds }

section Windows

variable {s : State} {d e : Inputs} {ds : List Inputs}

@[simp] theorem withDraw_cur : (s.withDraw d ds).cur = d := rfl
@[simp] theorem withDraw_byteIdx : (s.withDraw d ds).byteIdx = s.byteIdx := rfl
@[simp] theorem withDraw_symIdx : (s.withDraw d ds).symIdx = s.symIdx := rfl
@[simp] theorem withDraw_txBusy : (s.withDraw d ds).txBusy = s.txBusy := rfl
@[simp] theorem withDraw_halted : (s.withDraw d ds).halted = s.halted := rfl
@[simp] theorem withDraw_inReset : (s.withDraw d ds).inReset = s.inReset := rfl
@[simp] theorem withDraw_readFb (i : Nat) : (s.withDraw d ds).readFb i = s.readFb i := rfl
@[simp] theorem withDraw_readPb (j : Nat) : (s.withDraw d ds).readPb j = s.readPb j := rfl
@[simp] theorem withDraw_buffer : (s.withDraw d ds).buffer = s.buffer := rfl

/-- Two draws show the same on the source's ports and answer. -/
structure Inputs.SameSource (d e : Inputs) : Prop where
  valid : d.srcValid = e.srcValid
  fail : d.srcFail = e.srcFail
  data : d.srcData = e.srcData
  answer : d.srcAnswer = e.srcAnswer

/-- Two draws show the same `tx_err`, or no transmission is in flight to read it. -/
def State.SameError (s : State) (d e : Inputs) : Prop := s.halted = false → s.txBusy = true → d.txErr = e.txErr

/-- Two draws show the same in every port the state has its window open for, and the same `rst` and `hold`, which have
no window. -/
structure State.SampledAlike (s : State) (d e : Inputs) (ds : List Inputs) : Prop where
  rst : d.rst = e.rst
  hold : d.hold = e.hold
  config : (s.withDraw d ds).samplesConfig = true → d.cfgOk = e.cfgOk ∧ d.cfgBitOrder = e.cfgBitOrder
  source : (s.withDraw d ds).samplesSource = true → d.SameSource e
  txErr : (s.withDraw d ds).samplesTxErr = true → d.txErr = e.txErr

/-- An outcome with the state's next draw used up. -/
def popped : Host.Outcome State Fault Refusal → Host.Outcome State Fault Refusal := thenRun fun t => .next t.pop

theorem popped_ite (c : Prop) [Decidable c] (a b : Host.Outcome State Fault Refusal) :
    popped (if c then a else b) = if c then popped a else popped b := apply_ite popped c a b

/-! ### What an operation reads of its draw

Two draws that show the same where the operation looks give outcomes that differ in the draw itself only. -/

theorem popped_acquireAnswer (a : SrcAnswer) :
    popped (acquireAnswer a (s.withDraw d ds)) = popped (acquireAnswer a (s.withDraw e ds)) := by
  cases a <;> simp only [acquireAnswer, popped_ite] <;> rfl

theorem popped_acquireTick (hvalid : d.srcValid = e.srcValid) (hdata : d.srcData = e.srcData) :
    popped (acquireTick (s.withDraw d ds)) = popped (acquireTick (s.withDraw e ds)) := by
  simp only [acquireTick, popped_ite]
  exact if_congr (by rw [withDraw_cur, withDraw_cur, hvalid]) (by rw [withDraw_cur, withDraw_cur, hdata]; rfl) rfl

theorem popped_execAcquire (h : s.atBoundary .acquire → d.SameSource e) :
    popped (execAcquire (s.withDraw d ds)) = popped (execAcquire (s.withDraw e ds)) := by
  simp only [execAcquire, popped_ite]
  refine if_ctx_congr Iff.rfl (fun hopen => ?_) (fun _ => rfl)
  obtain ⟨hvalid, hfail, hdata, hanswer⟩ := h ((enabled_iff s .acquire).mp hopen)
  refine if_congr (by rw [withDraw_cur, withDraw_cur, hfail]) rfl ?_
  rw [withDraw_cur, withDraw_cur, hanswer]
  cases e.srcAnswer with
  | none => exact popped_acquireTick hvalid hdata
  | some a => exact popped_acquireAnswer a

theorem popped_execEncode : popped (execEncode (s.withDraw d ds)) = popped (execEncode (s.withDraw e ds)) := by
  simp only [execEncode, popped_ite]
  refine if_congr Iff.rfl (if_congr Iff.rfl ?_ rfl) rfl
  simp only [withDraw_readFb, withDraw_byteIdx]
  cases s.readFb s.byteIdx <;> rfl

theorem popped_execFrame : popped (execFrame (s.withDraw d ds)) = popped (execFrame (s.withDraw e ds)) := by
  simp only [execFrame, popped_ite]
  rfl

theorem popped_execTransmit (htx : s.SameError d e) :
    popped (execTransmit (s.withDraw d ds)) = popped (execTransmit (s.withDraw e ds)) := by
  simp only [execTransmit, popped_ite]
  refine if_ctx_congr Iff.rfl (fun hrun => if_ctx_congr Iff.rfl (fun hb => ?_) fun _ => ?_) (fun _ => rfl)
  · have hh : s.halted = false := by simpa using (Bool.and_eq_true_iff.mp hrun).2
    exact if_congr (by rw [withDraw_cur, withDraw_cur, htx hh hb]) rfl rfl
  · rw [withDraw_buffer, withDraw_buffer]
    cases s.buffer <;> rfl

theorem popped_execIdle : popped (execIdle (s.withDraw d ds)) = popped (execIdle (s.withDraw e ds)) := by
  simp only [execIdle, popped_ite]
  rfl

theorem popped_execHalt : popped (execHalt (s.withDraw d ds)) = popped (execHalt (s.withDraw e ds)) := by
  simp only [execHalt, popped_ite]
  rfl

theorem emitSymbol_withDraw (p : PulseSymbol) : emitSymbol p (s.withDraw d ds) = (emitSymbol p s).withDraw d ds := by
  obtain ⟨ht, he⟩ | ⟨ht, hh, he⟩ | ⟨ht, hh, he⟩ := emitSymbol_cases p s <;> rw [he]
  · exact emitSymbol_of_ticksLeft (s := s.withDraw d ds) ht
  · exact emitSymbol_of_first (s := s.withDraw d ds) ht hh
  · exact emitSymbol_of_second (s := s.withDraw d ds) ht hh

theorem popped_execTxEmit : popped (execTxEmit (s.withDraw d ds)) = popped (execTxEmit (s.withDraw e ds)) := by
  simp only [execTxEmit, popped_ite]
  refine if_congr Iff.rfl ?_ rfl
  simp only [withDraw_readPb, withDraw_symIdx, emitSymbol_withDraw]
  cases s.readPb s.symIdx <;> rfl

theorem resumeAfterCompletion_withDraw :
    (s.withDraw d ds).resumeAfterCompletion = s.resumeAfterCompletion.withDraw d ds :=
  (apply_ite (State.withDraw · d ds) (s.phase = .transmit) s.enterIdle s).symm

theorem popped_execTxDone : popped (execTxDone (s.withDraw d ds)) = popped (execTxDone (s.withDraw e ds)) := by
  have hdone : ∀ d : Inputs, (s.withDraw d ds).endTransmission.resumeAfterCompletion =
      s.endTransmission.resumeAfterCompletion.withDraw d ds :=
    fun _ => resumeAfterCompletion_withDraw (s := s.endTransmission)
  simp only [execTxDone, popped_ite, hdone]
  rfl

/-- An instruction reads of its draw the source's ports in ACQUIRE and `tx_err` in flight, and nothing else. -/
theorem popped_exec (i : Instr) (hsource : s.atBoundary .acquire → d.SameSource e) (htx : s.SameError d e) :
    popped (exec i (s.withDraw d ds)) = popped (exec i (s.withDraw e ds)) := by
  cases i with
  | acquire => exact popped_execAcquire hsource
  | encode => exact popped_execEncode
  | frame => exact popped_execFrame
  | transmit => exact popped_execTransmit htx
  | idle => exact popped_execIdle
  | halt => exact popped_execHalt
  | txEmit => exact popped_execTxEmit
  | txDone => exact popped_execTxDone
  | encodeByte o b => rfl
  | decodeSymbol p => rfl
  | s0 => rfl
  | s1 => rfl
  | sr => rfl

/-! ### What a step reads of its draw -/

/-- The step of an operation is its outcome with the draw used up, and the tick of a halted block. -/
theorem runDecoded_withDraw (hc : s.callPending = false) (i : Instr) :
    runDecoded (s.withDraw d ds) (.ok i) =
      thenRun (fun t => .next (if s.halted then t.tick else t)) (popped (exec i (s.withDraw d ds))) := by
  simp only [runDecoded]
  cases exec i (s.withDraw d ds) with
  | next t => exact congrArg Host.Outcome.next (settle_of_not_pending (s := s.withDraw d ds) hc t)
  | fault r => rfl
  | refused r => rfl

theorem canHold_withDraw_congr (htx : s.SameError d e) :
    (s.withDraw d ds).canHold = (s.withDraw e ds).canHold := by
  unfold State.canHold
  refine if_ctx_congr Iff.rfl (fun _ => rfl) fun hh => if_ctx_congr Iff.rfl (fun hb => ?_) fun _ => rfl
  rw [withDraw_cur, withDraw_cur, htx (eq_false_of_ne_true hh) hb]
  rfl

theorem operation_withDraw_congr (htx : s.SameError d e) :
    (s.withDraw d ds).operation = (s.withDraw e ds).operation := by
  unfold State.operation
  refine if_ctx_congr Iff.rfl (fun _ => rfl) fun hh => if_ctx_congr Iff.rfl (fun hb => ?_) fun _ => rfl
  exact if_congr (by rw [withDraw_cur, withDraw_cur, htx (eq_false_of_ne_true hh) hb]) rfl rfl

/-- Out of reset a step reads of its draw `hold` and what its operation reads. -/
theorem step_withDraw_congr_of_no_reset (hl : s.cfg.legal = true) (hc : s.callPending = false) (hi : s.inReset = false)
    (hd : d.rst = false) (he : e.rst = false) (hhold : d.hold = e.hold)
    (hsource : s.atBoundary .acquire → d.SameSource e) (htx : s.SameError d e) :
    step (s.withDraw d ds) = step (s.withDraw e ds) := by
  have hheld : (s.withDraw d ds).held = (s.withDraw e ds).held :=
    congrArg₂ (· && ·) hhold (canHold_withDraw_congr htx)
  cases hw : (s.withDraw e ds).held with
  | true =>
    rw [step_of_held (s := s.withDraw d ds) hl hc hd hi (hheld.trans hw),
      step_of_held (s := s.withDraw e ds) hl hc he hi hw]
    rfl
  | false =>
    rw [step_of_operation (s := s.withDraw d ds) hl hc hd hi (hheld.trans hw),
      step_of_operation (s := s.withDraw e ds) hl hc he hi hw, operation_withDraw_congr htx,
      runDecoded_withDraw hc, runDecoded_withDraw hc, popped_exec _ hsource htx]

/-- A step reads of its draw `rst`, `hold` and the ports whose windows are open. -/
theorem step_withDraw_congr (hc : s.callPending = false) (h : s.SampledAlike d e ds) :
    step (s.withDraw d ds) = step (s.withDraw e ds) := by
  cases hl : s.cfg.legal with
  | false => rw [step_of_illegal (s := s.withDraw d ds) hl, step_of_illegal (s := s.withDraw e ds) hl]
  | true =>
    cases hd : d.rst with
    | true =>
      rw [step_of_reset (s := s.withDraw d ds) hl hc hd, step_of_reset (s := s.withDraw e ds) hl hc (h.rst ▸ hd)]
      rfl
    | false =>
      have he : e.rst = false := h.rst ▸ hd
      cases hi : s.inReset with
      | true =>
        obtain ⟨hok, horder⟩ := h.config (by simp [State.samplesConfig, hi, hd])
        rw [step_of_release (s := s.withDraw d ds) hl hc hd hi, step_of_release (s := s.withDraw e ds) hl hc he hi,
          withDraw_cur, withDraw_cur, hok, horder]
        cases e.cfgOk <;> rfl
      | false =>
        refine step_withDraw_congr_of_no_reset hl hc hi hd he h.hold (fun ⟨hp, hh, hb⟩ => ?_) (fun hh hb => ?_)
        · exact h.source (samplesSource_iff.mpr ⟨hp, hh, hb, hi, hd⟩)
        · exact h.txErr (by simp [State.samplesTxErr, hi, hd, hh, hb])

end Windows

/-- Settles O33: two draws that differ only in ports whose window is closed are sampled alike. -/
theorem inputsOutsideTheirWindowsIgnored : Obligations.InputsOutsideTheirWindowsIgnored := by
  intro s d ds hc
  refine ⟨fun hclosed v f b a => step_withDraw_congr hc ?_, fun hclosed x => step_withDraw_congr hc ?_,
    fun hclosed k o => step_withDraw_congr hc ?_⟩
  · exact ⟨rfl, rfl, fun _ => ⟨rfl, rfl⟩, fun hopen => (nomatch hclosed.symm.trans hopen), fun _ => rfl⟩
  · exact ⟨rfl, rfl, fun _ => ⟨rfl, rfl⟩, fun _ => ⟨rfl, rfl, rfl, rfl⟩, fun hopen => nomatch hclosed.symm.trans hopen⟩
  · exact ⟨rfl, rfl, fun hopen => (nomatch hclosed.symm.trans hopen), fun _ => ⟨rfl, rfl, rfl, rfl⟩, fun _ => rfl⟩

end Sys2Proof.Machine

/-! PROOFS. Reset and hazards: the buffers and the log in flight (R215), the waits a `hold` draw lengthens (log 10), and
the states of a tick of reset and of its release (R210). -/

namespace Sys2Proof.Machine

section Hazards

variable {s t : State}

/-! ### The log in flight (R215) -/

/-- A step without reset that changes the log is a submit at the boundary of TRANSMIT. -/
theorem step_log (h : step s = .next t) (hrst : s.cur.rst = false) (hin : s.inReset = false) :
    t.log = s.log ∨ s.atBoundary .transmit := by
  obtain ⟨-, ⟨-, r, rfl⟩ | ⟨-, ⟨hrst', -⟩ | ⟨-, hin', -⟩ | ⟨-, -, -, rfl⟩ | ⟨-, -, -, u, hu, rfl⟩⟩⟩ := step_cases h
  · exact .inl rfl
  · exact nomatch hrst.symm.trans hrst'
  · exact nomatch hin.symm.trans hin'
  · exact .inl rfl
  · rw [settle_log]
    exact (exec_log hu).imp_right And.left

/-- In flight LOOP is not at the boundary of TRANSMIT, so no step but reset touches the log. -/
theorem step_keeps_log_in_flight (h : step s = .next t) (hb : s.txBusy = true) (hrst : s.cur.rst = false)
    (hin : s.inReset = false) : t.log = s.log :=
  (step_log h hrst hin).resolve_right fun ⟨_, _, hidle⟩ => nomatch hb.symm.trans hidle

/-- PB in flight is whole, and it is the last log entry. -/
theorem Contents.last_entry_in_flight (hc : Contents s) (hs : Shape s) (hb : s.txBusy = true) :
    ∃ buf, s.buffer = some buf ∧ s.log.getLast? = some buf := by
  obtain ⟨f, -, hbuf⟩ := built_in_flight hs hc hb
  exact ⟨_, hbuf, (hc.borrowed hb).trans hbuf⟩

/-! ### Where `hold` acts (R222; log 10) -/

theorem afterLastTick_of_end (hi : s.symIdx = s.cfg.bufferLen) : s.afterLastTick = true := decide_eq_true hi

theorem beforeFirstTick_of_start {p : PulseSymbol} (hp : s.readPb 0 = some p) (hi : s.symIdx = 0)
    (hhalf : s.half = .first) (ht : s.ticksLeft = p.d0) : s.beforeFirstTick = true := by
  simp [State.beforeFirstTick, hi, hhalf, ht, firstTicks_of_readPb hp]

/-- The latencies of a transmission: after the submit and before the completion (R136, R138). -/
theorem canHold_of_latency (hh : s.halted = false) (hb : s.txBusy = true) (hx : s.cur.txErr = false)
    (hat : s.beforeFirstTick = true ∨ s.afterLastTick = true) : s.canHold = true := by
  simpa [State.canHold, hh, hb, hx] using hat

/-- The waits of LOOP: before a byte of ENCODE, before FRAME and the submit, and at the end of IDLE (R133, R139). -/
theorem canHold_of_wait (hh : s.halted = false) (hb : s.txBusy = false)
    (hat : s.phase = .encode ∨ s.phase = .frame ∨ s.phase = .transmit ∨ (s.phase = .idle ∧ s.idleCnt = 0)) :
    s.canHold = true := by
  rcases hat with hp | hp | hp | ⟨hp, hz⟩ <;> simp [State.canHold, *]

theorem held_of_canHold (hhold : s.cur.hold = true) (hcan : s.canHold = true) : s.held = true := by
  rw [State.held, hhold, hcan, Bool.and_self]

/-! ### The states of reset and of its release, from State.reset (R38, R210) -/

/-- A tick of reset leaves State.reset but for the register `inReset`, the fields reset does not write, and
BIT_ORDER_Q, which has no value until release (log 11). -/
theorem holdReset_eq_reset (s : State) : s.holdReset = { State.reset with
    cfg := s.cfg, bitOrderQ := s.bitOrderQ, inReset := true, inputs := s.inputs
    call := s.call, result := s.result, freeCount := s.freeCount } := rfl

theorem releaseReset_of_ok (s : State) (o : BitOrder) : s.releaseReset true o = { State.reset with
    cfg := s.cfg, bitOrderQ := o, inputs := s.inputs
    call := s.call, result := s.result, freeCount := s.freeCount } := rfl

/-- With `cfg_ok = 0` the fault entry adds HALTED and the cause CONFIG (R171). -/
theorem releaseReset_of_not_ok (s : State) (o : BitOrder) : s.releaseReset false o = { State.reset with
    cfg := s.cfg, bitOrderQ := o, inputs := s.inputs
    call := s.call, result := s.result, freeCount := s.freeCount
    phase := .halted, halted := true, faultCause := .config } := rfl

end Hazards

/-- Settles O45: the borrowed buffer is the last log entry, and in flight LOOP is at the boundary of no phase, where the
buffers and the log are written. -/
theorem bufferImmutableInFlight : Obligations.BufferImmutableInFlight := by
  intro s t hs hb h hrst hin
  obtain ⟨hfb, hpb⟩ := buffersWrittenOnlyInTheirPhases s t h hrst hin
  exact ⟨hs.shape.busyPhase hb, hs.contents.last_entry_in_flight hs.shape hb, hpb (.inr (.inl hb)),
    hfb (.inr (.inl hb)), step_keeps_log_in_flight h hb hrst hin⟩

/-- Settles O28: each of the places is one where `hold` acts, and a held step is a tick and a used draw. -/
theorem holdLengthensAWait : Obligations.HoldLengthensAWait := by
  intro s hl hc hrst hin hhold hh hat
  have hcan : s.canHold = true := by
    rcases hat with ⟨hb, hx, hend | ⟨p, hp, hi, hhalf, ht⟩⟩ | ⟨hb, hwait⟩
    · exact canHold_of_latency hh hb hx (.inr (afterLastTick_of_end hend))
    · exact canHold_of_latency hh hb hx (.inl (beforeFirstTick_of_start hp hi hhalf ht))
    · exact canHold_of_wait hh hb hwait
  exact step_of_held hl hc hrst hin (held_of_canHold hhold hcan)

/-- Settles O29: the step is a tick of reset, which leaves State.reset in every register but BIT_ORDER_Q. -/
theorem resetTickSetsEveryRegister : Obligations.ResetTickSetsEveryRegister := by
  intro s hl hc hrst
  rw [step_of_reset hl hc hrst, holdReset_eq_reset]
  rfl

/-- Settles O30: the step is the release of reset, with the two values of `cfg_ok` one by one. -/
theorem releaseSamplesConfiguration : Obligations.ReleaseSamplesConfiguration := by
  intro s hl hc hrst hin
  rw [step_of_release hl hc hrst hin]
  constructor
  · intro hok
    rw [hok, releaseReset_of_ok]
    rfl
  · intro hok
    rw [hok, releaseReset_of_not_ok]
    rfl

end Sys2Proof.Machine
